-- ==== Sys2Proof/Word.lean ====
section
/-!
DEFINITION. The bit vectors the spec writes its registers and words in
(spec/00_scope.md R14: bit 0 is the least significant bit, every value is unsigned).
-/

namespace Sys2Proof

/-- One byte: a buffer element, a wire byte, the `DATA` field (30_encoding.md R88). -/
abbrev Byte := BitVec 8

/-- The 9-bit quantities: the `ARG` field (R88) and the length registers (10_state.md R24, R25, R36 to R38). -/
abbrev Len := BitVec 9

/-- A 16-bit CRC state (41_crc.md R110). -/
abbrev Crc := BitVec 16

/-- One 32-bit command word (30_encoding.md R88). -/
abbrev Word := BitVec 32

end Sys2Proof
end

