-- ==== Sys2Proof/Config.lean ====
section
/-!
DEFINITION. What is fixed when an instance is constructed (spec/00_scope.md R11), and the one free value of the
spec: what the bytes of the two buffers hold at reset (10_state.md R54, 93_implementation_defined.md U3).
-/

namespace Sys2Proof

/-- The two writable storage spaces (20_memory.md R60). -/
inductive Space where
  | rx
  | tx
  deriving DecidableEq, Repr

/-- The construction-time parameters of 00_scope.md R11.
The spec leaves every one of them OPEN (92_eei_decisions.md P1 to P7), so a claim is made for every legal
configuration (`Config.legal`, 70_reset_and_hazards.md R250 and R251). -/
structure Config where
  /-- `RX_CAP`, the receive buffer's capacity in bytes -/
  rxCap : Nat
  /-- `TX_CAP`, the transmit buffer's capacity in bytes -/
  txCap : Nat
  /-- `TICK_BITS`, the width W of the timer's tick count -/
  tickBits : Nat
  /-- `TIMEOUT_BUDGET`, in ticks -/
  timeoutBudget : Nat
  /-- `ID_EN`, sequence ids and duplicate filtering (R3) -/
  idEn : Bool
  /-- `RESEND_EN`, the resend protocol (R3) -/
  resendEn : Bool
  /-- `ERR_BITS`, the width of the error counter -/
  errBits : Nat
  deriving DecidableEq, Repr

/-- Configuration C0, which 95_test_vectors.md section 0 calls the default.
DESIGN CHOICE (log 2), unsafe: the spec leaves this hardware's own values open. -/
def Config.c0 : Config where
  rxCap := 262
  txCap := 262
  tickBits := 16
  timeoutBudget := 100
  idEn := false
  resendEn := true
  errBits := 16

/-- What index `k` of a buffer holds at reset: "any byte value per index", "a model takes it as a free draw"
(10_state.md R54, 93_implementation_defined.md U3 and U4). It has no body, so no proof can see its value.
DESIGN CHOICE (log 7) for the form. -/
opaque Config.unwrittenByte : Space → Nat → Byte

end Sys2Proof
end

