-- ==== Sys2Proof/Syntax.lean ====
section
/-!
DEFINITION. The eight commands of spec/30_encoding.md R89, one constructor for each row of spec/opcode_table.json.
The timer value that RX_BYTE and RX_IDLE sample is not in the word (R92); the machine takes it from the command
stream.
-/

namespace Sys2Proof

/-- A decoded command (30_encoding.md R89, operands of R91). -/
inductive Instr where
  /-- `CRC_INIT` (41_crc.md R114) -/
  | crcInit
  /-- `CRC_UPDATE b` (41_crc.md R115) -/
  | crcUpdate (b : Byte)
  /-- `RX_BYTE b` (42_rx_parser.md R130) -/
  | rxByte (b : Byte)
  /-- `RX_IDLE` (44_timeout_and_tick.md R190) -/
  | rxIdle
  /-- `RX_RELEASE` (44_timeout_and_tick.md R200) -/
  | rxRelease
  /-- `TX_SLOT_WRITE i, b` (43_tx.md R160) -/
  | txSlotWrite (i : Len) (b : Byte)
  /-- `TX_SEND n` (43_tx.md R165) -/
  | txSend (n : Len)
  /-- `TX_ACCEPT` (43_tx.md R172) -/
  | txAccept
  deriving DecidableEq, Repr

/-- The mnemonic of 30_encoding.md R89. -/
def Instr.mnemonic : Instr → String
  | .crcInit => "CRC_INIT"
  | .crcUpdate _ => "CRC_UPDATE"
  | .rxByte _ => "RX_BYTE"
  | .rxIdle => "RX_IDLE"
  | .rxRelease => "RX_RELEASE"
  | .txSlotWrite _ _ => "TX_SLOT_WRITE"
  | .txSend _ => "TX_SEND"
  | .txAccept => "TX_ACCEPT"

end Sys2Proof
end

