-- ==== Sys2Proof/WellFormed.lean ====
section
/-!
DEFINITION. Which terms are meaningful: the configurations of spec/70_reset_and_hazards.md R250 and R251 (with the
legal values of 00_scope.md R11), and the instructions.
-/

namespace Sys2Proof

/-- A legal configuration. A configuration that fails a check gets no behaviour: `step` and every meaning refuse it
by name (R250: "A model refuses a configuration that breaks this constraint. It gives such a configuration no
behaviour."; R251; 93_implementation_defined.md U1 and U9). -/
def Config.legal (c : Config) : Bool :=
  decide (7 ≤ c.rxCap)
    && decide (7 ≤ c.txCap)
    && decide (1 ≤ c.tickBits)
    && decide (1 ≤ c.timeoutBudget)
    && decide (c.timeoutBudget ≤ 2 ^ c.tickBits - 1)
    && decide (1 ≤ c.errBits)

/-- Every value of every operand can be encoded and is decoded (30_encoding.md R91: "Length 0 and lengths 257 to 511
can be encoded. They are decoded"), and the operand types are exactly the fields' widths, so an instruction has
nothing left to check. -/
def Instr.wellFormed : Instr → Bool
  | .crcInit => true
  | .crcUpdate _ => true
  | .rxByte _ => true
  | .rxIdle => true
  | .rxRelease => true
  | .txSlotWrite _ _ => true
  | .txSend _ => true
  | .txAccept => true

end Sys2Proof
end

