-- ==== Sys2Proof/Decode.lean ====
section
/-!
DEFINITION. The command word: its fields (spec/30_encoding.md R88), the decoder (R93), the encoder and the opcode map
(R89) as data.
-/

namespace Sys2Proof

/-! ## Fields of a word (R88) -/

/-- `OP`, bits [31:28]. -/
def opField (w : Word) : BitVec 4 := w.extractLsb' 28 4

/-- `RSV1`, bits [27:25], reserved. -/
def rsv1Field (w : Word) : BitVec 3 := w.extractLsb' 25 3

/-- `ARG`, bits [24:16]. -/
def argField (w : Word) : Len := w.extractLsb' 16 9

/-- `RSV0`, bits [15:8], reserved. -/
def rsv0Field (w : Word) : Byte := w.extractLsb' 8 8

/-- `DATA`, bits [7:0]. -/
def dataField (w : Word) : Byte := w.extractLsb' 0 8

/-! ## Decoder (R93) -/

/-- Why a word is illegal. All four give the one status `ILLEGAL` (R90); the names are the model's own (log 15). -/
inductive Illegal where
  /-- `OP` is 0x0 or 0x9 to 0xF -/
  | opcode
  /-- a nonzero bit in `RSV1` or `RSV0` -/
  | reserved
  /-- a nonzero `ARG` where the opcode requires 0 -/
  | arg
  /-- a nonzero `DATA` where the opcode requires 0 -/
  | data
  deriving DecidableEq, Repr

/-- The checks of one case of R93. `usesArg` and `usesData` say which operand fields the opcode has; the others
must be 0, as must both reserved fields. -/
def checkFields (w : Word) (usesArg usesData : Bool) (i : Instr) : Except Illegal Instr :=
  if rsv1Field w ≠ 0 ∨ rsv0Field w ≠ 0 then .error .reserved
  else if usesArg = false ∧ argField w ≠ 0 then .error .arg
  else if usesData = false ∧ dataField w ≠ 0 then .error .data
  else .ok i

/-- The decoder of R93, total on every word. -/
def decode (w : Word) : Except Illegal Instr :=
  if opField w = 0x1 then checkFields w false false .crcInit
  else if opField w = 0x2 then checkFields w false true (.crcUpdate (dataField w))
  else if opField w = 0x3 then checkFields w false true (.rxByte (dataField w))
  else if opField w = 0x4 then checkFields w false false .rxIdle
  else if opField w = 0x5 then checkFields w false false .rxRelease
  else if opField w = 0x6 then checkFields w true true (.txSlotWrite (argField w) (dataField w))
  else if opField w = 0x7 then checkFields w true false (.txSend (argField w))
  else if opField w = 0x8 then checkFields w false false .txAccept
  else .error .opcode

/-- The instruction the decoder reads from a table word of `nbits` bits whose other bits are 0. The block takes a
command word as one 32-bit value (20_memory.md R67), so there is no byte order to choose; no command is longer than
32 bits (R94). -/
def decodeTableWord (nbits w : Nat) : Option Instr :=
  if nbits ≤ 32 then (decode (BitVec.ofNat 32 (w % 2 ^ nbits))).toOption else none

/-! ## Encoder -/

/-- A word with both reserved fields 0 (R88: `{OP, RSV1, ARG, RSV0, DATA}`). -/
def wordOf (op : BitVec 4) (arg : Len) (data : Byte) : Word :=
  op ++ 0#3 ++ arg ++ 0#8 ++ data

/-- The word of an instruction, from the opcode map R89. -/
def encode : Instr → Word
  | .crcInit => wordOf 0x1 0 0
  | .crcUpdate b => wordOf 0x2 0 b
  | .rxByte b => wordOf 0x3 0 b
  | .rxIdle => wordOf 0x4 0 0
  | .rxRelease => wordOf 0x5 0 0
  | .txSlotWrite i b => wordOf 0x6 i b
  | .txSend n => wordOf 0x7 n 0
  | .txAccept => wordOf 0x8 0 0

/-! ## The opcode map as data (R89) -/

/-- One row of R89: a word belongs to it when `word AND mask = pattern`. -/
structure OpcodeRow where
  mnemonic : String
  pattern : Word
  mask : Word
  deriving DecidableEq, Repr

/-- A word matches a row (R90). -/
abbrev OpcodeRow.matches (r : OpcodeRow) (w : Word) : Prop := w &&& r.mask = r.pattern

/-- The eight rows of R89, with the match and mask columns as the spec prints them. -/
def opcodeRows : List OpcodeRow :=
  [⟨"CRC_INIT", 0x10000000, 0xFFFFFFFF⟩,
   ⟨"CRC_UPDATE", 0x20000000, 0xFFFFFF00⟩,
   ⟨"RX_BYTE", 0x30000000, 0xFFFFFF00⟩,
   ⟨"RX_IDLE", 0x40000000, 0xFFFFFFFF⟩,
   ⟨"RX_RELEASE", 0x50000000, 0xFFFFFFFF⟩,
   ⟨"TX_SLOT_WRITE", 0x60000000, 0xFE00FF00⟩,
   ⟨"TX_SEND", 0x70000000, 0xFE00FFFF⟩,
   ⟨"TX_ACCEPT", 0x80000000, 0xFFFFFFFF⟩]

end Sys2Proof
end

