-- ==== Sys2Proof/Machine/State.lean ====
section
/-!
DEFINITION. The machine's state (spec/10_state.md R20 to R40), the reasons a step can stop, and the state after reset
(R54).
-/

namespace Sys2Proof.Machine

/-- `rx_phase` (10_state.md R21): the role of the next byte the parser expects.
The codes 10 to 15 are never held (R21, R53), so they have no constructor (log 9). -/
inductive Phase where
  | sync0
  | sync1
  | id
  | len
  | payload
  | crclo
  | crchi
  | rrq
  | done
  | error
  deriving DecidableEq, Repr

/-- `rx_err_cause` (60_exceptions.md R220). Code 7 is never written (93_implementation_defined.md U14), so it has no
constructor (log 9). -/
inductive ErrCause where
  | none
  | header
  | size
  | crc
  | duplicateId
  | bufferOverrun
  | timeout
  deriving DecidableEq, Repr

/-- `tx_src` (10_state.md R35): which bytes the drainer sends. -/
inductive TxSrc where
  | frame
  | ctrl
  deriving DecidableEq, Repr

/-- The status a command returns (30_encoding.md R95). -/
inductive Status where
  | ok
  | busy
  | unavailable
  | illegal
  deriving DecidableEq, Repr

/-- One command of the host: the word, and the timer value the host gives with it (60_exceptions.md R244). -/
structure Command where
  word : Word
  now : Nat
  deriving DecidableEq, Repr

/-- A buffer: the bytes written since reset, as (index, byte) pairs with strictly rising indexes. An index that is
not listed has not been written; what it holds is its free draw, `Config.unwrittenByte` (log 7). -/
abbrev Memory := List Host.Cell

/-- The canonical form: indexes strictly rise. (The memory level knows no value of an unlisted index, so no entry
can equal one.) -/
abbrev Memory.wf (m : Memory) : Prop := m.Pairwise (fun c d => c.1 < d.1)

/-- Every listed index exists in a buffer of `cap` bytes (20_memory.md R60). -/
abbrev Memory.within (cap : Nat) (m : Memory) : Prop := ∀ c ∈ m, c.1 < cap

/-- Everything the spec gives the machine. Each field's docstring names its rule. -/
structure State where
  /-- the construction-time parameters (00_scope.md R11); no command writes them (10_state.md R48; log 1) -/
  cfg : Config
  /-- `rx_phase` (R21) -/
  rxPhase : Phase
  /-- `rx_rrq`, the resend-request sub-mode flag (R22) -/
  rxRrq : Bool
  /-- `rx_index` (R23) -/
  rxIndex : Nat
  /-- `rx_expected` (R24) -/
  rxExpected : Len
  /-- `rx_plen` (R25) -/
  rxPlen : Len
  /-- `rx_crc` (R26) -/
  rxCrc : Crc
  /-- `rx_frame_id` (R27) -/
  rxFrameId : Byte
  /-- `rx_last_id` (R28) -/
  rxLastId : Byte
  /-- `rx_deadline`, `TICK_BITS` bits (R29; log 8) -/
  rxDeadline : Nat
  /-- `rx_last`, `TICK_BITS` bits (R30; log 8) -/
  rxLast : Nat
  /-- `rx_err_cause` (R31) -/
  rxErrCause : ErrCause
  /-- `err_count`, `ERR_BITS` bits (R32; log 8) -/
  errCount : Nat
  /-- `rx_buf` (R33) -/
  rxBuf : Memory
  /-- `tx_buf` (R34) -/
  txBuf : Memory
  /-- `tx_src` (R35) -/
  txSrc : TxSrc
  /-- `tx_cursor` (R36) -/
  txCursor : Len
  /-- `tx_remaining` (R37) -/
  txRemaining : Len
  /-- `tx_last_len` (R38) -/
  txLastLen : Len
  /-- `tx_seq` (R39) -/
  txSeq : Byte
  /-- `crc_acc` (R40) -/
  crcAcc : Crc
  /-- the commands the host has issued and the block has not taken yet, the next one first (log 4) -/
  commands : List Command
  /-- the timer value given with the command being run (30_encoding.md R92; log 5) -/
  now : Nat
  /-- the status the last command returned (30_encoding.md R95; log 6) -/
  status : Status
  deriving DecidableEq, Repr

/-- Why a step stops with a fault. The spec has no fatal condition (60_exceptions.md R222); this one is the check of
20_memory.md R60 that an index exists. -/
inductive Fault where
  /-- A command's own access to index `index` of a buffer that has no such index. Raised by `withinBuffer` for RX_BYTE,
  TX_SLOT_WRITE and TX_SEND. Safe: the rules check first (R61, R62), so it never happens. -/
  | bufferIndexOutOfRange (space : Space) (index : Nat)
  deriving DecidableEq, Repr

/-- Why a step is refused. -/
inductive Refusal where
  /-- An instruction without a meaning yet, raised by `exec` only. Safe. -/
  | notModelled (mnemonic : String)
  /-- A configuration that breaks 70_reset_and_hazards.md R250 or R251 (log 3). Raised by `configured` for every
  command and for `step`. Safe: the spec asks the model to refuse it. -/
  | illegalConfiguration
  /-- TX_ACCEPT with `tx_cursor` = 511 and a byte to send: the incremented cursor would leave its 9 bits. Such a state
  breaks 10_state.md R52 items 8 and 9 and is unreachable; R53 lets a model refuse it (log 10). Safe. -/
  | unreachableState
  /-- A read port that does not exist: an index at or past a buffer's capacity (20_memory.md R62; log 11). Raised by
  the read ports only. Safe. -/
  | noSuchPort
  deriving DecidableEq, Repr

/-- The outcome of a command. -/
abbrev Result := Host.Outcome State Fault Refusal

/-- The state after reset of an instance constructed with configuration `c` (10_state.md R54, 70_reset_and_hazards.md
R252): every register at the value of R54, nothing written into either buffer, no command issued. `now` and
`status` are the model's own (log 5, log 6). -/
def State.resetFor (c : Config) : State where
  cfg := c
  rxPhase := .sync0
  rxRrq := false
  rxIndex := 0
  rxExpected := 0
  rxPlen := 0
  rxCrc := 0xFFFF
  rxFrameId := 0x00
  rxLastId := 0x00
  rxDeadline := 0
  rxLast := 0
  rxErrCause := .none
  errCount := 0
  rxBuf := []
  txBuf := []
  txSrc := .frame
  txCursor := 0
  txRemaining := 0
  txLastLen := 0
  txSeq := 0x00
  crcAcc := 0xFFFF
  commands := []
  now := 0
  status := .ok

/-- The machine right after reset, with the configuration the spec's test vectors call the default (log 2). -/
def State.reset : State := State.resetFor Config.c0

end Sys2Proof.Machine
end

