-- ==== Sys2Proof/Machine/Flags.lean ====
section
/-!
DEFINITION. The derived flags (spec/10_state.md R41 to R45).
-/

namespace Sys2Proof.Machine

/-- `rx_done` (R41). -/
def rxDone (s : State) : Bool := decide (s.rxPhase = .done)

/-- `tx_busy` (R42). -/
def txBusy (s : State) : Bool := decide (s.txRemaining ≠ 0)

/-- `rx_error` (R43). -/
def rxError (s : State) : Bool := decide (s.rxPhase = .error)

/-- `deadline_armed` (R44). -/
def deadlineArmed (s : State) : Bool := decide (s.rxDeadline ≠ 0)

/-- `in_progress` (R45): at least one byte of the frame is stored, and it has neither completed nor failed. -/
def inProgress (s : State) : Bool :=
  decide (0 < s.rxIndex ∧ s.rxPhase ≠ .error ∧ s.rxPhase ≠ .rrq ∧ s.rxPhase ≠ .done)

end Sys2Proof.Machine
end

