-- ==== Sys2Proof/Machine/Wire.lean ====
section
/-!
DEFINITION. The wire format: the protocol's constants (spec/00_scope.md R12) and the two frame forms
(30_encoding.md R81 to R85).
-/

namespace Sys2Proof.Machine

/-- `SYNC0` (R12). -/
def sync0Byte : Byte := 0xFF

/-- `SYNC1` (R12). -/
def sync1Byte : Byte := 0x55

/-- `RRQ0` (R12). -/
def rrq0Byte : Byte := 0x00

/-- `RRQ1` (R12). -/
def rrq1Byte : Byte := 0xAA

/-- `PMAX`, the largest payload (R12). -/
def maxPayload : Nat := 256

/-- `OVH`, the frame overhead (R12). -/
def overhead : Nat := 6

/-- `POFF`, the offset of the first payload byte (R12). -/
def payloadOffset : Nat := 4

/-- `CTRL_FRAME`, the resend-request control frame (20_memory.md R60, 30_encoding.md R85). -/
def ctrlFrame : List Byte := [rrq0Byte, rrq1Byte]

/-- The four bytes before the payload, for a payload of `n` bytes (30_encoding.md R81, R82: LEN is `n − 1`). -/
def frameHeader (id : Byte) (n : Nat) : List Byte := [sync0Byte, sync1Byte, id, BitVec.ofNat 8 (n - 1)]

/-- The two check bytes of the bytes before them, low byte first (R84, 20_memory.md R64). -/
def checkBytes (covered : List Byte) : List Byte :=
  [crcLow (crcFold crcInitValue covered), crcHigh (crcFold crcInitValue covered)]

/-- The normal frame of R81: header, payload, CRC over everything before it (R84). -/
def wireFrame (id : Byte) (payload : List Byte) : List Byte :=
  frameHeader id payload.length ++ payload ++ checkBytes (frameHeader id payload.length ++ payload)

end Sys2Proof.Machine
end

