-- ==== Sys2Proof/Machine/Operands.lean ====
section
/-!
DEFINITION. The operands of the commands: the timer sample, the write slot's index, the payload length, and the sizes
derived from the configuration (spec/00_scope.md R13).
-/

namespace Sys2Proof.Machine

/-- `SLOT_SIZE = min(PMAX, TX_CAP − OVH)` (00_scope.md R13). -/
def slotSize (c : Config) : Nat := min maxPayload (c.txCap - overhead)

/-- `RX_MAXLEN = min(RX_CAP, PMAX + OVH)`, the longest frame the receiver accepts (R13). -/
def rxMaxLen (c : Config) : Nat := min c.rxCap (maxPayload + overhead)

/-- The index in `tx_buf` of slot byte `i` (43_tx.md R160: `tx_buf[4 + i]`). -/
def slotAddress (i : Len) : Nat := payloadOffset + i.toNat

/-- A payload length TX_SEND accepts (43_tx.md R163: `1 ≤ n ≤ 256` and `n + 6 ≤ TX_CAP`). -/
def sendable (c : Config) (n : Len) : Bool :=
  decide (n ≠ 0 ∧ n.toNat ≤ maxPayload ∧ n.toNat + overhead ≤ c.txCap)

/-- The timer value a command samples, `TICK_BITS` bits wide (60_exceptions.md R242; log 5). -/
def sampleNow (s : State) : Nat := s.now % 2 ^ s.cfg.tickBits

/-- `(now − rx_last) mod 2^TICK_BITS` (44_timeout_and_tick.md R191). The subtraction is written as adding the
complement, so that it stays in the natural numbers. -/
def elapsedTicks (tickBits last now : Nat) : Nat :=
  (now + (2 ^ tickBits - last % 2 ^ tickBits)) % 2 ^ tickBits

end Sys2Proof.Machine
end

