-- ==== Sys2Proof/Machine/Ops.lean ====
section
/-!
DEFINITION. The shared operations: how a command ends, the two buffers, latching a receive error (spec/60_exceptions.md
R223, the analogue of taking an exception), the return to idle (44_timeout_and_tick.md R196), arming the drainer
(43_tx.md R176, R177) and the timeout (44_timeout_and_tick.md R193 to R195).
-/

namespace Sys2Proof.Machine

/-! ## How a command ends -/

/-- The command ends in state `s` and returns status `st` (30_encoding.md R95). -/
def finish (st : Status) (s : State) : Result := .next { s with status := st }

/-- A configuration that is not legal gets no behaviour (70_reset_and_hazards.md R250, R251; log 3). -/
def configured (s : State) (r : Result) : Result :=
  if s.cfg.legal then r else .refused .illegalConfiguration

/-- The capacity of a buffer (20_memory.md R60). -/
def capacity (c : Config) : Space → Nat
  | .rx => c.rxCap
  | .tx => c.txCap

/-- A command that accesses indexes below `bound` of a buffer. An index past the capacity does not exist and faults;
the rules rule it out beforehand (20_memory.md R61, R62; log 12). -/
def withinBuffer (s : State) (space : Space) (bound : Nat) (r : Result) : Result :=
  if bound ≤ capacity s.cfg space then r else .fault (.bufferIndexOutOfRange space (bound - 1))

/-! ## Buffers (20_memory.md R60, R66) -/

/-- The byte written at `k` since reset, if any. -/
def Memory.get? : Memory → Nat → Option Byte
  | [], _ => none
  | (a, b) :: m, k => if a = k then some b else Memory.get? m k

/-- What index `k` of a buffer reads as: the byte written there, or the free draw of reset (10_state.md R54; log 7). -/
def Memory.read (space : Space) (m : Memory) (k : Nat) : Byte :=
  match Memory.get? m k with
  | some b => b
  | none => Config.unwrittenByte space k

/-- `buf[k] <- v` (00_scope.md R15), keeping the canonical form. -/
def Memory.set : Memory → Nat → Byte → Memory
  | [], k, v => [(k, v)]
  | (a, b) :: m, k, v =>
    if k < a then (k, v) :: (a, b) :: m
    else if a = k then (k, v) :: m
    else (a, b) :: Memory.set m k v

/-- Consecutive writes from index `k` on. -/
def Memory.setMany : Memory → Nat → List Byte → Memory
  | m, _, [] => m
  | m, k, v :: vs => Memory.setMany (Memory.set m k v) (k + 1) vs

/-- The `n` bytes from index `k` on. -/
def Memory.readRange (space : Space) (m : Memory) (k : Nat) : Nat → List Byte
  | 0 => []
  | n + 1 => Memory.read space m k :: Memory.readRange space m (k + 1) n

/-- `rx_buf[k]` (10_state.md R33). -/
def State.rxByte (s : State) (k : Nat) : Byte := Memory.read .rx s.rxBuf k

/-- `tx_buf[k]` (10_state.md R34). -/
def State.txByte (s : State) (k : Nat) : Byte := Memory.read .tx s.txBuf k

/-! ## Receive errors and the idle state -/

/-- `enter_error(c)` (60_exceptions.md R223): latches a receive error; the first cause is kept. -/
def enterError (c : ErrCause) (s : State) : State :=
  if s.rxPhase = .error then s else { s with rxPhase := .error, rxErrCause := c }

/-- `rx_idle_reset()` (44_timeout_and_tick.md R196). -/
def rxIdleReset (s : State) : State :=
  { s with
    rxPhase := .sync0
    rxRrq := false
    rxIndex := 0
    rxExpected := 0
    rxPlen := 0
    rxCrc := crcInitValue
    rxDeadline := 0 }

/-- A byte was sampled: the deadline is loaded with the budget and the sample time is kept (42_rx_parser.md R132). -/
def loadDeadline (s : State) : State :=
  { s with rxDeadline := s.cfg.timeoutBudget, rxLast := sampleNow s }

/-- The byte is stored at `rx_buf[rx_index]`, folded into `rx_crc`, and counted (42_rx_parser.md R134). -/
def takeByte (b : Byte) (s : State) : State :=
  { s with
    rxBuf := Memory.set s.rxBuf s.rxIndex b
    rxCrc := crcUpdate s.rxCrc b
    rxIndex := s.rxIndex + 1 }

/-! ## Arming the drainer -/

/-- Queue `n` bytes of a source from its first byte (43_tx.md R168, R176, R177). -/
def armDrainer (src : TxSrc) (n : Len) (s : State) : State :=
  { s with txSrc := src, txCursor := 0, txRemaining := n }

/-- `arm_ctrl()` (43_tx.md R176): the control frame, only with `RESEND_EN` and TX idle. -/
def armCtrl (s : State) : State :=
  if s.cfg.resendEn = true ∧ s.txRemaining = 0 then armDrainer .ctrl 2 s else s

/-- `arm_resend()` (43_tx.md R177): the retained frame as it stands, only when there is one and TX is idle. -/
def armResend (s : State) : State :=
  if s.txLastLen ≠ 0 ∧ s.txRemaining = 0 then armDrainer .frame s.txLastLen s else s

/-! ## The timeout -/

/-- `err_count <- (err_count + 1) mod 2^ERR_BITS` (44_timeout_and_tick.md R193). -/
def countError (s : State) : State :=
  { s with errCount := (s.errCount + 1) % 2 ^ s.cfg.errBits }

/-- The first statement of `timeout_fire()`: a partial frame is forced to `ERROR` (R193). -/
def abandonPartial (s : State) : State :=
  if inProgress s then enterError .timeout s else s

/-- The `ERROR` branch, or else the `RRQ` branch, of `timeout_fire()` (R193, R194). -/
def resolvePhase (s : State) : State :=
  if s.rxPhase = .error then armCtrl (countError s)
  else if s.rxPhase = .rrq then armResend s
  else s

/-- `timeout_fire()` (R193 to R195). -/
def timeoutFire (s : State) : State := rxIdleReset (resolvePhase (abandonPartial s))

end Sys2Proof.Machine
end

