-- ==== Sys2Proof/Machine/Crc.lean ====
section
/-!
DEFINITION. The CRC commands, on the standalone accumulator (spec/41_crc.md R114, R115).
-/

namespace Sys2Proof.Machine

/-- `CRC_INIT` (R114). -/
def execCrcInit (s : State) : Result :=
  configured s (finish .ok { s with crcAcc := crcInitValue })

/-- `CRC_UPDATE b` (R115). -/
def execCrcUpdate (b : Byte) (s : State) : Result :=
  configured s (finish .ok { s with crcAcc := crcUpdate s.crcAcc b })

end Sys2Proof.Machine
end

