-- ==== Sys2Proof/Machine/Rx.lean ====
section
/-!
DEFINITION. The receive state machine and its three commands: RX_BYTE (spec/42_rx_parser.md), RX_IDLE and RX_RELEASE
(44_timeout_and_tick.md).
-/

namespace Sys2Proof.Machine

/-! ## The phase transition function, one definition a phase -/

/-- Phase `SYNC0` (42_rx_parser.md R136). -/
def stepSync0 (b : Byte) (s : State) : State :=
  if b = sync0Byte then { s with rxRrq := false, rxPhase := .sync1 }
  else if b = rrq0Byte ∧ s.cfg.resendEn = true then { s with rxRrq := true, rxPhase := .sync1 }
  else enterError .header s

/-- Phase `SYNC1` (R137). -/
def stepSync1 (b : Byte) (s : State) : State :=
  if s.rxRrq = false then
    if b = sync1Byte then { s with rxPhase := .id } else enterError .header s
  else
    if b = rrq1Byte then { s with rxPhase := .rrq } else enterError .header s

/-- Phase `ID` (R139). -/
def stepId (b : Byte) (s : State) : State := { s with rxFrameId := b, rxPhase := .len }

/-- Phase `LEN` (R140). The registers are written even when the size check fails. -/
def stepLen (b : Byte) (s : State) : State :=
  let s' := { s with rxPlen := b.setWidth 9 + 1, rxExpected := b.setWidth 9 + 7 }
  if s.cfg.rxCap < b.toNat + 7 then enterError .size s' else { s' with rxPhase := .payload }

/-- Phase `PAYLOAD` (R141), for the byte stored at index `i`. -/
def stepPayload (i : Nat) (s : State) : State :=
  if i = 3 + s.rxPlen.toNat then { s with rxPhase := .crclo } else s

/-- Phase `CRCHI` (R146, R144): the CRC test, then the duplicate test, then acceptance. -/
def stepCrcHi (s : State) : State :=
  if s.rxCrc ≠ 0 then enterError .crc s
  else if s.cfg.idEn = true ∧ s.rxFrameId = s.rxLastId then enterError .duplicateId s
  else { s with rxLastId := if s.cfg.idEn then s.rxFrameId else s.rxLastId, rxPhase := .done }

/-- `rx_step(b, i)` (R135): the rule of the current phase, for the byte `b` stored at index `i`. In `DONE` RX_BYTE is
refused before this function is reached (R131). -/
def rxStep (b : Byte) (i : Nat) (s : State) : State :=
  match s.rxPhase with
  | .sync0 => stepSync0 b s
  | .sync1 => stepSync1 b s
  | .id => stepId b s
  | .len => stepLen b s
  | .payload => stepPayload i s
  | .crclo => { s with rxPhase := .crchi }
  | .crchi => stepCrcHi s
  | .rrq => enterError .header s
  | .done => s
  | .error => s

/-! ## The commands -/

/-- `RX_BYTE b` (R130; the order of the checks is 60_exceptions.md R227). -/
def execRxByte (b : Byte) (s : State) : Result :=
  configured s <|
    if s.rxPhase = .done then finish .busy s
    else if s.cfg.rxCap ≤ s.rxIndex then finish .ok (enterError .bufferOverrun (loadDeadline s))
    else withinBuffer s .rx (s.rxIndex + 1) <|
      finish .ok (rxStep b s.rxIndex (takeByte b (loadDeadline s)))

/-- `RX_IDLE` (44_timeout_and_tick.md R190). -/
def execRxIdle (s : State) : Result :=
  configured s <|
    if s.rxPhase = .done then finish .busy s
    else
      let elapsed := elapsedTicks s.cfg.tickBits s.rxLast (sampleNow s)
      let s' := { s with rxLast := sampleNow s }
      if s.rxDeadline ≤ elapsed then finish .ok (timeoutFire s')
      else finish .ok { s' with rxDeadline := s.rxDeadline - elapsed }

/-- `RX_RELEASE` (44_timeout_and_tick.md R200). -/
def execRxRelease (s : State) : Result :=
  configured s <|
    if s.rxPhase = .done then finish .ok (rxIdleReset s) else finish .unavailable s

end Sys2Proof.Machine
end

