-- ==== Sys2Proof/Machine/Tx.lean ====
section
/-!
DEFINITION. The transmit manager's three commands (spec/43_tx.md): TX_SLOT_WRITE, TX_SEND and TX_ACCEPT.
-/

namespace Sys2Proof.Machine

/-- `TX_SLOT_WRITE i, b` (R160). -/
def execTxSlotWrite (i : Len) (b : Byte) (s : State) : Result :=
  configured s <|
    if s.txRemaining ≠ 0 ∨ slotSize s.cfg ≤ i.toNat then finish .unavailable s
    else withinBuffer s .tx (slotAddress i + 1) <|
      finish .ok { s with txBuf := Memory.set s.txBuf (slotAddress i) b }

/-- The frame assembled in `tx_buf` around the `n` payload bytes of the slot (R166, R167): the header, then the CRC of
everything before it, low byte first. -/
def buildFrame (id : Byte) (n : Nat) (m : Memory) : Memory :=
  let m' := Memory.setMany m 0 (frameHeader id n)
  Memory.setMany m' (payloadOffset + n) (checkBytes (Memory.readRange .tx m' 0 (payloadOffset + n)))

/-- The sequence id after a successful send (R166): incremented first when `ID_EN` = 1. -/
def nextSeq (s : State) : Byte := if s.cfg.idEn then s.txSeq + 1 else s.txSeq

/-- The id byte of the frame (R166): the new sequence id, or 0x00 when `ID_EN` = 0. -/
def frameIdByte (s : State) : Byte := if s.cfg.idEn then nextSeq s else 0x00

/-- `tx_last_len` after a successful send of `n` bytes (R169). -/
def retainedLength (n : Len) (s : State) : Len := if s.cfg.resendEn then n + 6 else s.txLastLen

/-- `TX_SEND n` (R165, refusals R170). -/
def execTxSend (n : Len) (s : State) : Result :=
  configured s <|
    if s.txRemaining ≠ 0 ∨ sendable s.cfg n = false then finish .busy s
    else withinBuffer s .tx (n.toNat + overhead) <|
      finish .ok <| armDrainer .frame (n + 6)
        { s with
          txBuf := buildFrame (frameIdByte s) n.toNat s.txBuf
          txSeq := nextSeq s
          txLastLen := retainedLength n s }

/-- `TX_ACCEPT` (R172). A cursor of 511 cannot be incremented in 9 bits; no reachable state has it (log 10). -/
def execTxAccept (s : State) : Result :=
  configured s <|
    if s.txRemaining = 0 then finish .unavailable s
    else if s.txCursor = 511 then .refused .unreachableState
    else finish .ok { s with txCursor := s.txCursor + 1, txRemaining := s.txRemaining - 1 }

end Sys2Proof.Machine
end

