-- ==== Sys2Proof/Machine/Dispatch.lean ====
section
/-!
DEFINITION. One arm for each command of spec/30_encoding.md R89.
-/

namespace Sys2Proof.Machine

def exec (i : Instr) (s : State) : Host.Outcome State Fault Refusal :=
  match i with
  | .crcInit => Sys2Proof.Machine.execCrcInit s
  | .crcUpdate b => Sys2Proof.Machine.execCrcUpdate b s
  | .rxByte b => Sys2Proof.Machine.execRxByte b s
  | .rxIdle => Sys2Proof.Machine.execRxIdle s
  | .rxRelease => Sys2Proof.Machine.execRxRelease s
  | .txSlotWrite k b => Sys2Proof.Machine.execTxSlotWrite k b s
  | .txSend n => Sys2Proof.Machine.execTxSend n s
  | .txAccept => Sys2Proof.Machine.execTxAccept s

end Sys2Proof.Machine
end

