-- ==== Sys2Proof/Machine/Issue.lean ====
section
/-!
DEFINITION. Taking one command from the host's stream (spec/00_scope.md R16, 30_encoding.md R90 and R92). `step` only
calls this.
-/

namespace Sys2Proof.Machine

/-- The block takes the next command: the word leaves the stream and its timer value is presented (log 4, log 5). -/
def takeCommand (c : Command) (rest : List Command) (s : State) : State :=
  { s with commands := rest, now := c.now }

/-- The command word is decoded before anything else; an illegal word only returns `ILLEGAL` (30_encoding.md R90,
60_exceptions.md R228). -/
def runWord (w : Word) (s : State) : Result :=
  match decode w with
  | .ok i => exec i s
  | .error _ => finish .illegal s

/-- One step of the block: the next command of the host, or waiting unchanged when there is none (60_exceptions.md
R235, 70_reset_and_hazards.md R252). -/
def nextCommand (s : State) : Result :=
  configured s <|
    match s.commands with
    | [] => .next s
    | c :: rest => runWord c.word (takeCommand c rest s)

/-- The table word `w` of `nbits` bits, as the 32-bit word the host issues. -/
def wordOfTable (nbits w : Nat) : Word := BitVec.ofNat 32 (w % 2 ^ nbits)

/-- The host issues the word `w` next, with the timer value the block was last given (log 14). -/
def issueWord (w : Word) (s : State) : State :=
  { s with commands := ⟨w, s.now⟩ :: s.commands }

end Sys2Proof.Machine
end

