-- ==== Sys2Proof/Machine/Step.lean ====
section
/-!
DEFINITION. One step of the machine: the next command of the host's stream (spec/00_scope.md R16).
-/

namespace Sys2Proof.Machine

/-- One command, one atomic step (R16). -/
def step (s : State) : Host.Outcome State Fault Refusal := nextCommand s

/-- The host issues the table word `w` as the next command (log 14). -/
def State.withFetchWord (s : State) (nbits w : Nat) : State := issueWord (wordOfTable nbits w) s

end Sys2Proof.Machine
end

