-- ==== Sys2Proof/Machine/Ports.lean ====
section
/-!
DEFINITION. The read ports (spec/10_state.md R49 to R51) and the numeric codes they show (R21, R35, 30_encoding.md R95,
60_exceptions.md R220). A port is a function of the state, so reading it changes nothing (R49).
-/

namespace Sys2Proof.Machine

/-! ## Numeric codes -/

/-- The 4-bit code of `rx_phase` (10_state.md R21). -/
def phaseCode : Phase → BitVec 4
  | .sync0 => 0
  | .sync1 => 1
  | .id => 2
  | .len => 3
  | .payload => 4
  | .crclo => 5
  | .crchi => 6
  | .rrq => 7
  | .done => 8
  | .error => 9

/-- The 3-bit code of `rx_err_cause` (60_exceptions.md R220). -/
def causeCode : ErrCause → BitVec 3
  | .none => 0
  | .header => 1
  | .size => 2
  | .crc => 3
  | .duplicateId => 4
  | .bufferOverrun => 5
  | .timeout => 6

/-- The 1-bit code of `tx_src` (10_state.md R35). -/
def srcCode : TxSrc → BitVec 1
  | .frame => 0
  | .ctrl => 1

/-- The 2-bit code of a status (30_encoding.md R95). -/
def statusCode : Status → BitVec 2
  | .ok => 0
  | .busy => 1
  | .unavailable => 2
  | .illegal => 3

/-! ## Buffer ports -/

/-- Byte `k` of `rx_buf`, a port for `k < RX_CAP` only (R49; 20_memory.md R62: "A model refuses it"; log 11). -/
def rxBufPort (s : State) (k : Nat) : Except Refusal Byte :=
  if k < s.cfg.rxCap then .ok (s.rxByte k) else .error .noSuchPort

/-- Byte `k` of `tx_buf`, a port for `k < TX_CAP` only (R49, R62; log 11). -/
def txBufPort (s : State) (k : Nat) : Except Refusal Byte :=
  if k < s.cfg.txCap then .ok (s.txByte k) else .error .noSuchPort

/-- Byte `k` of `CTRL_FRAME` (20_memory.md R60). -/
def ctrlFramePort (k : Nat) : Except Refusal Byte :=
  match ctrlFrame[k]? with
  | some b => .ok b
  | none => .error .noSuchPort

/-- `tx_out` (R50): the byte the drainer offers, if any. A cursor past the source's end is unreachable and is refused
(R53; log 11). -/
def txOut (s : State) : Except Refusal (Option Byte) :=
  if s.txRemaining = 0 then .ok none
  else
    match s.txSrc with
    | .frame => (txBufPort s s.txCursor.toNat).map some
    | .ctrl => (ctrlFramePort s.txCursor.toNat).map some

/-- `rx_payload` (R51): in `DONE` the payload's bytes, else none. A payload past the buffer's end is unreachable and is
refused (R53; log 11). -/
def rxPayload (s : State) : Except Refusal (Option (List Byte)) :=
  if s.rxPhase ≠ .done then .ok none
  else if payloadOffset + s.rxPlen.toNat ≤ s.cfg.rxCap then
    .ok (some (Memory.readRange .rx s.rxBuf payloadOffset s.rxPlen.toNat))
  else .error .noSuchPort

/-! ## Every port by name (R49) -/

/-- The read ports of R49 to R51. -/
inductive Port where
  | rxPhase | rxRrq | rxIndex | rxExpected | rxPlen | rxCrc | rxFrameId | rxLastId | rxDeadline | rxLast | rxErrCause
  | errCount | txSrc | txCursor | txRemaining | txLastLen | txSeq | crcAcc
  | rxDone | txBusy | rxError | deadlineArmed | inProgress
  | rxBuf (k : Nat)
  | txBuf (k : Nat)
  | txOut
  | rxPayload
  deriving DecidableEq, Repr

/-- What a port shows: a number, a sequence of bytes, or none. -/
inductive PortValue where
  | number (n : Nat)
  | bytes (l : List Byte)
  | absent
  deriving DecidableEq, Repr

/-- A one-bit port. -/
def flagValue (b : Bool) : PortValue := .number b.toNat

/-- Reading a port (R49). -/
def readPort (s : State) : Port → Except Refusal PortValue
  | .rxPhase => .ok (.number (phaseCode s.rxPhase).toNat)
  | .rxRrq => .ok (flagValue s.rxRrq)
  | .rxIndex => .ok (.number s.rxIndex)
  | .rxExpected => .ok (.number s.rxExpected.toNat)
  | .rxPlen => .ok (.number s.rxPlen.toNat)
  | .rxCrc => .ok (.number s.rxCrc.toNat)
  | .rxFrameId => .ok (.number s.rxFrameId.toNat)
  | .rxLastId => .ok (.number s.rxLastId.toNat)
  | .rxDeadline => .ok (.number s.rxDeadline)
  | .rxLast => .ok (.number s.rxLast)
  | .rxErrCause => .ok (.number (causeCode s.rxErrCause).toNat)
  | .errCount => .ok (.number s.errCount)
  | .txSrc => .ok (.number (srcCode s.txSrc).toNat)
  | .txCursor => .ok (.number s.txCursor.toNat)
  | .txRemaining => .ok (.number s.txRemaining.toNat)
  | .txLastLen => .ok (.number s.txLastLen.toNat)
  | .txSeq => .ok (.number s.txSeq.toNat)
  | .crcAcc => .ok (.number s.crcAcc.toNat)
  | .rxDone => .ok (flagValue (Machine.rxDone s))
  | .txBusy => .ok (flagValue (Machine.txBusy s))
  | .rxError => .ok (flagValue (Machine.rxError s))
  | .deadlineArmed => .ok (flagValue (Machine.deadlineArmed s))
  | .inProgress => .ok (flagValue (Machine.inProgress s))
  | .rxBuf k => (rxBufPort s k).map fun b => .bytes [b]
  | .txBuf k => (txBufPort s k).map fun b => .bytes [b]
  | .txOut => (Machine.txOut s).map fun o => o.elim .absent fun b => .bytes [b]
  | .rxPayload => (Machine.rxPayload s).map fun o => o.elim .absent .bytes

end Sys2Proof.Machine
end

