-- ==== Sys2Proof/Machine/Pseudo.lean ====
section
/-!
DEFINITION. Sequences of commands: the pseudo-commands of spec/30_encoding.md R97 and running a sequence, one command
after another (20_memory.md R69).
-/

namespace Sys2Proof.Machine

/-- Go on with the next state; a fault or a refusal ends the sequence. -/
def andThen {α β : Type} (r : Host.Outcome α Fault Refusal) (k : α → Host.Outcome β Fault Refusal) :
    Host.Outcome β Fault Refusal :=
  match r with
  | .next a => k a
  | .fault f => .fault f
  | .refused e => .refused e

/-- The timer value the host presents with a command; a command that samples no timer may come with none (30_encoding.md
R92). -/
def presentTime (t : Option Nat) (s : State) : State :=
  match t with
  | some v => { s with now := v }
  | none => s

/-- The host issues the instruction `i`, with timer value `t` if it gives one. -/
def issue (i : Instr) (t : Option Nat) (s : State) : Result := exec i (presentTime t s)

/-- Commands one after another (20_memory.md R69), each with the timer value the host gives. -/
def runAll : List (Instr × Option Nat) → State → Result
  | [], s => .next s
  | (i, t) :: rest, s => andThen (issue i t s) (runAll rest)

/-- The pseudo-commands of R97. -/
inductive Pseudo where
  | crcBuffer (bs : List Byte)
  | txWritePayload (bs : List Byte)
  | txSendBytes (bs : List Byte)
  | drain (k : Nat)
  | rxFeed (bs : List Byte) (t : Nat)
  deriving DecidableEq, Repr

/-- Slot writes of consecutive bytes from slot index `j` on. An index that does not fit the 9 bits of `ARG` has no
command, and the whole expansion has none (R88). -/
def slotWrites : Nat → List Byte → Option (List Instr)
  | _, [] => some []
  | j, b :: bs =>
    if j < 512 then (slotWrites (j + 1) bs).map (Instr.txSlotWrite (BitVec.ofNat 9 j) b :: ·) else none

/-- The expansion of a pseudo-command (R97): the commands in order, each with its timer value; only RX_FEED gives one.
`none` where a number does not fit its field (DESIGN CHOICE, log 18). An empty byte list expands too, to what is left of
the expansion without its bytes: R97 writes lists of at least one byte only (DESIGN CHOICE, log 22). -/
def Pseudo.expand : Pseudo → Option (List (Instr × Option Nat))
  | .crcBuffer bs => some ((.crcInit, none) :: bs.map fun b => (.crcUpdate b, none))
  | .txWritePayload bs => (slotWrites 0 bs).map fun l => l.map (·, none)
  | .txSendBytes bs =>
    if bs.length < 512 then
      (slotWrites 0 bs).map fun l => l.map (·, none) ++ [(.txSend (BitVec.ofNat 9 bs.length), none)]
    else none
  | .drain k => some (List.replicate k (.txAccept, none))
  | .rxFeed bs t => some (bs.map fun b => (.rxByte b, some t))

/-- The commands that feed bytes to the receiver, each at its own time. -/
def feed (bs : List (Byte × Nat)) : List (Instr × Option Nat) := bs.map fun p => (.rxByte p.1, some p.2)

/-- `k` TX_ACCEPTs in a row, with the bytes they hand over: each hands over the value of `tx_out` before it (43_tx.md
R172, R173). It stops early when no byte is on offer. -/
def handOver : Nat → State → Host.Outcome (List Byte × State) Fault Refusal
  | 0, s => .next ([], s)
  | k + 1, s =>
    match txOut s with
    | .error e => .refused e
    | .ok none => .next ([], s)
    | .ok (some b) =>
      andThen (exec .txAccept s) fun t =>
        andThen (handOver k t) fun p => .next (b :: p.1, p.2)

end Sys2Proof.Machine
end

