-- ==== Sys2Proof/Machine/Tick.lean ====
section
/-!
DEFINITION. The host procedure TICK (spec/44_timeout_and_tick.md R205 to R212), over the block's commands. The sink's
answers and the source's answers are lists the host supplies (60_exceptions.md R240 to R243; log 16, log 17).
-/

namespace Sys2Proof.Machine

/-- One poll of the byte source: a byte or "no data" (R240), with the timer value read for it (R208). -/
structure Poll where
  byte : Option Byte
  time : Nat
  deriving DecidableEq, Repr

/-- What the handler does (60_exceptions.md R243): slot writes in order, then no reply or a reply length. -/
structure Reply where
  writes : List (Len × Byte)
  length : Option Len
  deriving DecidableEq, Repr

/-- What step 1 leaves: the bytes the sink took, oldest first, and the answers it has not given yet. -/
structure Drained where
  state : State
  sunk : List Byte
  answers : List Bool
  deriving DecidableEq, Repr

/-- Step 1 (R206): TX_ACCEPT for each byte the sink accepts, until it refuses or TX is idle. The sink's answers are
`true` for accepted; a sink with no answer left refuses (43_tx.md R173). -/
def drain : List Bool → State → Host.Outcome Drained Fault Refusal
  | answers, s =>
    match txOut s with
    | .error e => .refused e
    | .ok none => .next ⟨s, [], answers⟩
    | .ok (some b) =>
      match answers with
      | [] => .next ⟨s, [], []⟩
      | false :: rest => .next ⟨s, [], rest⟩
      | true :: rest =>
        andThen (exec .txAccept s) fun t =>
          andThen (drain rest t) fun d => .next { d with sunk := b :: d.sunk }

/-- What step 2 leaves: the state, and what the handler was given, if it was called. -/
structure Delivered where
  state : State
  called : Option (Nat × List Byte)
  deriving DecidableEq, Repr

/-- The handler's commands, in order (R207): its slot writes, then TX_SEND of its reply, then RX_RELEASE. -/
def replyCommands (r : Reply) : List (Instr × Option Nat) :=
  r.writes.map (fun w => (.txSlotWrite w.1 w.2, none))
    ++ (match r.length with
        | some m => [(.txSend m, none)]
        | none => [])
    ++ [(.rxRelease, none)]

/-- Step 2 (R207): with a completed frame and TX idle, the handler gets the payload, and the frame is released whatever
it replies. -/
def deliver (handler : Nat → List Byte → Reply) (s : State) : Host.Outcome Delivered Fault Refusal :=
  if rxDone s = true ∧ txBusy s = false then
    match rxPayload s with
    | .error e => .refused e
    | .ok none => .next ⟨s, none⟩
    | .ok (some payload) =>
      andThen (runAll (replyCommands (handler s.rxPlen.toNat payload)) s) fun t =>
        .next ⟨t, some (s.rxPlen.toNat, payload)⟩
  else .next ⟨s, none⟩

/-- How step 3 stands: it exited with polls left over, or it is still sampling when the given polls are used up (R212:
a tick may never return). -/
inductive PollEnd where
  | exited (s : State) (rest : List Poll)
  | running (s : State)
  deriving DecidableEq, Repr

/-- The test at the top of step 3's loop (R205, R208, R209): no completed frame, and index 0 or a deadline armed. -/
def keepsPolling (s : State) : Bool :=
  !rxDone s && (decide (s.rxIndex = 0) || deadlineArmed s)

/-- Step 3 (R208, R209): each poll issues one RX_BYTE or RX_IDLE with the timer value read for it. -/
def pollLoop : List Poll → State → Host.Outcome PollEnd Fault Refusal
  | [], s => .next (if keepsPolling s then .running s else .exited s [])
  | p :: rest, s =>
    if keepsPolling s then
      match p.byte with
      | some b => andThen (issue (.rxByte b) (some p.time) s) (pollLoop rest)
      | none => andThen (issue .rxIdle (some p.time) s) fun t => .next (.exited t rest)
    else .next (.exited s (p :: rest))

/-- One tick so far. -/
structure Ticked where
  sunk : List Byte
  answers : List Bool
  called : Option (Nat × List Byte)
  poll : PollEnd
  deriving DecidableEq, Repr

/-- TICK (R205): drain, then deliver, then poll. -/
def tick (handler : Nat → List Byte → Reply) (answers : List Bool) (polls : List Poll) (s : State) :
    Host.Outcome Ticked Fault Refusal :=
  andThen (drain answers s) fun d =>
    andThen (deliver handler d.state) fun v =>
      andThen (pollLoop polls v.state) fun p =>
        .next ⟨d.sunk, d.answers, v.called, p⟩

end Sys2Proof.Machine
end

