-- ==== Sys2Proof/Safety.lean ====
section
/-!
DEFINITION. What a good state is: the invariants of spec/10_state.md R52, clause by clause, with what the registers'
widths and the buffers' sizes add (R23 to R40, 20_memory.md R60), and the coverage of the receive CRC
(42_rx_parser.md R145). The clauses marked DEDUCED (log 21) are not in R52's list: they hold with it, and without them
the list is not kept by every step.
-/

namespace Sys2Proof.Machine

/-- R52 items 1 to 3. -/
abbrev IndexInv (s : State) : Prop :=
  s.rxIndex ≤ s.cfg.rxCap
    ∧ (s.rxPhase = .sync0 ↔ s.rxIndex = 0)
    ∧ (s.rxPhase = .sync1 → s.rxIndex = 1)
    ∧ (s.rxPhase = .id ∨ s.rxPhase = .rrq → s.rxIndex = 2)
    ∧ (s.rxPhase = .len → s.rxIndex = 3)

/-- R52 items 4 and 5. -/
abbrev LengthInv (s : State) : Prop :=
  (s.rxPhase = .payload → 4 ≤ s.rxIndex ∧ s.rxIndex ≤ 3 + s.rxPlen.toNat)
    ∧ (s.rxPhase = .crclo → s.rxIndex = 4 + s.rxPlen.toNat)
    ∧ (s.rxPhase = .crchi → s.rxIndex = 5 + s.rxPlen.toNat)
    ∧ (s.rxPhase = .done →
        s.rxIndex = s.rxExpected.toNat ∧ s.rxExpected.toNat = s.rxPlen.toNat + 6
          ∧ s.rxPlen.toNat + 6 ≤ s.cfg.rxCap)
    ∧ (s.rxPhase = .payload ∨ s.rxPhase = .crclo ∨ s.rxPhase = .crchi ∨ s.rxPhase = .done →
        s.rxExpected.toNat = s.rxPlen.toNat + 6 ∧ 1 ≤ s.rxPlen.toNat ∧ s.rxPlen.toNat ≤ 256
          ∧ s.rxExpected.toNat ≤ s.cfg.rxCap)

/-- R24 and R25: both lengths are 0 until the length byte is received. -/
abbrev UnsetLengthInv (s : State) : Prop :=
  s.rxPhase = .sync0 ∨ s.rxPhase = .sync1 ∨ s.rxPhase = .id ∨ s.rxPhase = .len ∨ s.rxPhase = .rrq →
    s.rxExpected = 0 ∧ s.rxPlen = 0

/-- R52 item 6. -/
abbrev ResendModeInv (s : State) : Prop :=
  (s.rxRrq = true → s.rxPhase = .sync1 ∨ s.rxPhase = .rrq ∨ s.rxPhase = .error)
    ∧ (s.rxPhase = .rrq → s.rxRrq = true ∧ s.cfg.resendEn = true)

/-- The resend sub-mode exists only with `RESEND_EN` = 1 (R22). DEDUCED (log 21). -/
abbrev ResendEnabledInv (s : State) : Prop := s.rxRrq = true → s.cfg.resendEn = true

/-- R52 item 7. -/
abbrev DeadlineInv (s : State) : Prop :=
  s.rxDeadline ≤ s.cfg.timeoutBudget ∧ (s.rxPhase = .sync0 → s.rxDeadline = 0)

/-- The loop condition of TICK's step 3: 44_timeout_and_tick.md R208. -/
abbrev PollInv (s : State) : Prop := s.rxIndex = 0 ∨ s.rxDeadline ≠ 0

/-- R52 items 8 to 10. -/
abbrev DrainInv (s : State) : Prop :=
  (s.txRemaining ≠ 0 → s.txSrc = .ctrl → s.txCursor.toNat + s.txRemaining.toNat = 2)
    ∧ (s.txRemaining ≠ 0 → s.txSrc = .frame →
        7 ≤ s.txCursor.toNat + s.txRemaining.toNat
          ∧ s.txCursor.toNat + s.txRemaining.toNat ≤ min s.cfg.txCap 262)
    ∧ (s.txLastLen = 0 ∨ (7 ≤ s.txLastLen.toNat ∧ s.txLastLen.toNat ≤ min s.cfg.txCap 262))
    ∧ (s.cfg.resendEn = false → s.txLastLen = 0)

/-- R52 item 11. -/
abbrev IdInv (s : State) : Prop := s.cfg.idEn = false → s.rxLastId = 0x00 ∧ s.txSeq = 0x00

/-- The eleven invariants of R52, with the clauses that complete them. -/
structure Inv (s : State) : Prop where
  index : IndexInv s
  lengths : LengthInv s
  unsetLengths : UnsetLengthInv s
  resendMode : ResendModeInv s
  resendEnabled : ResendEnabledInv s
  deadline : DeadlineInv s
  poll : PollInv s
  drain : DrainInv s
  ids : IdInv s

/-- The registers that the model holds as numbers stay within their widths (10_state.md R29, R30, R32; log 8). -/
abbrev WidthInv (s : State) : Prop :=
  s.rxDeadline < 2 ^ s.cfg.tickBits ∧ s.rxLast < 2 ^ s.cfg.tickBits ∧ s.errCount < 2 ^ s.cfg.errBits

/-- Both buffers are in canonical form and hold no index past their capacity (20_memory.md R60 to R62). -/
abbrev BufferInv (s : State) : Prop :=
  Memory.wf s.rxBuf ∧ Memory.within s.cfg.rxCap s.rxBuf ∧ Memory.wf s.txBuf ∧ Memory.within s.cfg.txCap s.txBuf

/-- `rx_crc` is the CRC of the bytes stored for the current frame (42_rx_parser.md R145), and it is 0 in `DONE`
(R146). -/
abbrev CrcCoverage (s : State) : Prop :=
  s.rxCrc = crcFold crcInitValue (Memory.readRange .rx s.rxBuf 0 s.rxIndex) ∧ (s.rxPhase = .done → s.rxCrc = 0)

/-- States a run can reach: reset with a legal configuration, then commands of the host, in any order (20_memory.md
R69), each step answering a next state. -/
inductive Reachable : State → Prop where
  | atReset (c : Config) (legal : c.legal = true) : Reachable (State.resetFor c)
  | hostIssues (s : State) (cs : List Command) (h : Reachable s) : Reachable { s with commands := s.commands ++ cs }
  | steps (s t : State) (h : Reachable s) (hs : step s = .next t) : Reachable t

end Sys2Proof.Machine
end

