-- ==== Sys2Proof/Certificates/Slice0/Obligations.lean ====
section
/-!
DEFINITION. The statements for the provers. Each docstring names the rule of spec/ it formalises.
No statement rests on a value of `Config.unwrittenByte` or on the configuration of `State.reset`; each holds for every
legal configuration.
-/

open Sys2Proof Sys2Proof.Machine

/-! ## Encoding -/

/-- 30_encoding.md R88, R89, R93: decoding an encoded command gives it back, with every operand at every value, and a
word that decodes to a command is that command's encoding, so each command has exactly one word. -/
def Obligations.DecodeAndEncodeAgree : Prop :=
  (∀ i : Instr, decode (encode i) = .ok i) ∧ ∀ (w : Word) (i : Instr), decode w = .ok i → encode i = w

/-- 30_encoding.md R90: a word is illegal exactly when it matches no row of R89, and an illegal word changes no state
and returns `ILLEGAL`. (The command leaves the stream, and its timer value is presented: log 4, log 5.) -/
def Obligations.IllegalWordChangesNothing : Prop :=
  ∀ w : Word,
    ((∃ e, decode w = .error e) ↔ ∀ r ∈ opcodeRows, w &&& r.mask ≠ r.pattern)
      ∧ ∀ (s : State) (t : Nat) (rest : List Command),
          s.cfg.legal = true → s.commands = ⟨w, t⟩ :: rest → (∃ e, decode w = .error e) →
            step s = .next { s with commands := rest, now := t, status := .illegal }

/-- 30_encoding.md R89: a word that decodes to a command matches that command's row of the opcode map and no other. -/
def Obligations.DecodedWordMatchesOneRow : Prop :=
  ∀ (w : Word) (i : Instr), decode w = .ok i →
    ∃ r ∈ opcodeRows, r.mnemonic = i.mnemonic ∧ w &&& r.mask = r.pattern
      ∧ ∀ r' ∈ opcodeRows, w &&& r'.mask = r'.pattern → r' = r

/-- 30_encoding.md R98, all its example words, written out. -/
def Obligations.SpecExampleWordsDecode : Prop :=
  decode 0x30000041 = .ok (.rxByte 0x41)
    ∧ decode 0x60010042 = .ok (.txSlotWrite 1 0x42)
    ∧ decode 0x70020000 = .ok (.txSend 2)
    ∧ decode 0x71000000 = .ok (.txSend 256)
    ∧ decode 0x80000000 = .ok .txAccept
    ∧ decode 0x200000FF = .ok (.crcUpdate 0xFF)
    ∧ (∃ e, decode 0x00000000 = .error e)
    ∧ ∃ e, decode 0x30010041 = .error e

/-- 30_encoding.md R88, R89, R91: where the operands stand in the word, as numbers: `ARG` from bit 16 on, `DATA` from
bit 0 on, over the whole range of each. -/
def Obligations.OperandsStandInTheirFields : Prop :=
  ∀ i b : Nat, i < 512 → b < 256 →
    decode (BitVec.ofNat 32 (0x60000000 + i * 65536 + b)) = .ok (.txSlotWrite (BitVec.ofNat 9 i) (BitVec.ofNat 8 b))
      ∧ decode (BitVec.ofNat 32 (0x70000000 + i * 65536)) = .ok (.txSend (BitVec.ofNat 9 i))
      ∧ decode (BitVec.ofNat 32 (0x20000000 + b)) = .ok (.crcUpdate (BitVec.ofNat 8 b))
      ∧ decode (BitVec.ofNat 32 (0x30000000 + b)) = .ok (.rxByte (BitVec.ofNat 8 b))

/-! ## Steps and configurations -/

/-- A step runs the decoded command (00_scope.md R16, 30_encoding.md R92): the word leaves the stream and its timer
value is the `now` the command samples. -/
def Obligations.StepRunsDecodedCommand : Prop :=
  ∀ (s : State) (c : Command) (rest : List Command) (i : Instr),
    s.commands = c :: rest → decode c.word = .ok i → step s = exec i { s with commands := rest, now := c.now }

/-- 60_exceptions.md R235, 70_reset_and_hazards.md R252: with no command the block holds its state. The stream is the
model's form of the host (log 4). -/
def Obligations.StepWaitsForTheHost : Prop :=
  ∀ s : State, s.cfg.legal = true → s.commands = [] → step s = .next s

/-- Derived from 70_reset_and_hazards.md R250 and R251 and the legal values of 00_scope.md R11: which configurations are
legal, and that any other gets no behaviour. That `TICK_BITS` = 0 and `ERR_BITS` = 0 are refused with them, and the form
of the refusal, are the model's (DEDUCED, log 3). -/
def Obligations.IllegalConfigurationGetsNoBehaviour : Prop :=
  (∀ c : Config, c.legal = true ↔
      7 ≤ c.rxCap ∧ 7 ≤ c.txCap ∧ (1 ≤ c.timeoutBudget ∧ c.timeoutBudget ≤ 2 ^ c.tickBits - 1)
        ∧ 1 ≤ c.tickBits ∧ 1 ≤ c.errBits)
    ∧ ∀ s : State, s.cfg.legal = false →
        step s = .refused .illegalConfiguration ∧ ∀ i : Instr, exec i s = .refused .illegalConfiguration

/-- 10_state.md R48: no command changes the configuration. -/
def Obligations.ConfigurationNeverChanges : Prop :=
  (∀ s t : State, step s = .next t → t.cfg = s.cfg) ∧ ∀ (i : Instr) (s t : State), exec i s = .next t → t.cfg = s.cfg

/-- 30_encoding.md R95: the codes of the four statuses, and that a refused command changes no state. -/
def Obligations.RefusedCommandsChangeNothing : Prop :=
  (statusCode .ok = 0 ∧ statusCode .busy = 1 ∧ statusCode .unavailable = 2 ∧ statusCode .illegal = 3)
    ∧ (∀ (i : Instr) (s t : State), exec i s = .next t → t.status ≠ .ok → t = { s with status := t.status })
    ∧ (∀ (i : Instr) (s t : State), exec i s = .next t → t.status ≠ .illegal)
    ∧ ∀ (s t : State) (c : Command) (rest : List Command), s.commands = c :: rest → step s = .next t →
        t.status ≠ .ok → t = { s with commands := rest, now := c.now, status := t.status }

/-- 20_memory.md R61 and R62, 60_exceptions.md R222: no command ever accesses an index that its buffer does not have. -/
def Obligations.NoStepFaults : Prop :=
  (∀ (s : State) (f : Fault), step s ≠ .fault f) ∧ ∀ (i : Instr) (s : State) (f : Fault), exec i s ≠ .fault f

/-! ## CRC -/

/-- 41_crc.md R110: the table form and the bitwise form are equal for every state and byte. -/
def Obligations.CrcTableFormEqualsBitwiseForm : Prop :=
  ∀ (c : Crc) (b : Byte), crcUpdate c b = crcUpdateBits c b

/-- 41_crc.md R111: entry `n` of the listed table is `crc_update_bits(n, 0)`. -/
def Obligations.CrcTableEntriesAreShiftedIndexes : Prop :=
  ∀ n : Byte, crcTable n = crcUpdateBits (n.setWidth 16) 0

/-- 41_crc.md R113: appending the CRC, low byte first, always gives state 0. -/
def Obligations.CrcResidueIsZero : Prop :=
  ∀ l : List Byte, crcFold 0xFFFF (l ++ [(crcFold 0xFFFF l).extractLsb' 0 8, (crcFold 0xFFFF l).extractLsb' 8 8]) = 0

/-- 41_crc.md R116: the check value over ASCII "123456789". -/
def Obligations.CrcCheckValue : Prop :=
  crcFold 0xFFFF [0x31, 0x32, 0x33, 0x34, 0x35, 0x36, 0x37, 0x38, 0x39] = 0x6F91

/-- 41_crc.md R117 (b), for any change within one byte: the CRC of the sequence changes, so a frame whose CRC was good
has a nonzero residue after the change. -/
def Obligations.CrcDetectsEveryOneByteChange : Prop :=
  ∀ (c : Crc) (before after : List Byte) (b b' : Byte), b ≠ b' →
    crcFold c (before ++ b :: after) ≠ crcFold c (before ++ b' :: after)

/-- 41_crc.md R114: CRC_INIT, its encoding, its effect and its frame. -/
def Obligations.CrcInitSetsAccumulator : Prop :=
  encode .crcInit = 0x10000000
    ∧ (∀ w : Word, w.extractLsb' 28 4 = 0x1 → w ≠ 0x10000000 → ∃ e, decode w = .error e)
    ∧ ∀ s : State, s.cfg.legal = true → exec .crcInit s = .next { s with crcAcc := 0xFFFF, status := .ok }

/-- 41_crc.md R115: CRC_UPDATE, its encoding, its effect (by the bitwise form of R110), its frame and its corner
cases. -/
def Obligations.CrcUpdateFoldsByte : Prop :=
  (∀ (w : Word) (b : Byte), decode w = .ok (.crcUpdate b) ↔ w &&& 0xFFFFFF00 = 0x20000000 ∧ w.extractLsb' 0 8 = b)
    ∧ (∀ w : Word, w.extractLsb' 28 4 = 0x2 → w &&& 0xFFFFFF00 ≠ 0x20000000 → ∃ e, decode w = .error e)
    ∧ (∀ (s : State) (b : Byte), s.cfg.legal = true →
        exec (.crcUpdate b) s = .next { s with crcAcc := crcUpdateBits s.crcAcc b, status := .ok })
    ∧ crcUpdateBits 0xFFFF 0x00 = 0x0F87 ∧ crcUpdateBits 0 0 = 0 ∧ crcUpdateBits 0xFFFF 0xFF = 0x00FF
    ∧ ∀ c : Crc, crcUpdateBits (crcUpdateBits c (c.extractLsb' 0 8)) (c.extractLsb' 8 8) = 0

/-- 10_state.md R40: only the CRC commands write the accumulator, and the other commands do not use it: with another
value in it they do the same and keep that value. -/
def Obligations.AccumulatorIsSeparate : Prop :=
  ∀ (i : Instr) (s t : State), i ≠ .crcInit → (∀ b, i ≠ .crcUpdate b) → exec i s = .next t →
    t.crcAcc = s.crcAcc ∧ ∀ x : Crc, exec i { s with crcAcc := x } = .next { t with crcAcc := x }

/-! ## RX_BYTE -/

/-- 42_rx_parser.md R131: in `DONE` the byte is refused with `BUSY` and nothing else changes. -/
def Obligations.RxByteRefusedInDone : Prop :=
  ∀ (s : State) (b : Byte), s.cfg.legal = true → s.rxPhase = .done →
    exec (.rxByte b) s = .next { s with status := .busy }

/-- 42_rx_parser.md R132 and R134: every RX_BYTE that is not refused completes, loads the deadline and keeps the sample
time; with room in the buffer the byte is stored, folded and counted, and no other byte of either buffer changes. -/
def Obligations.RxByteStoresFoldsAndCounts : Prop :=
  ∀ (s : State) (b : Byte), s.cfg.legal = true → s.rxPhase ≠ .done →
    ∃ t : State, exec (.rxByte b) s = .next t ∧ t.status = .ok
      ∧ t.rxDeadline = s.cfg.timeoutBudget ∧ t.rxLast = s.now % 2 ^ s.cfg.tickBits
      ∧ (s.rxIndex < s.cfg.rxCap →
          t.rxCrc = crcUpdate s.rxCrc b ∧ t.rxIndex = s.rxIndex + 1
            ∧ (∀ k, t.rxByte k = if k = s.rxIndex then b else s.rxByte k) ∧ ∀ k, t.txByte k = s.txByte k)

/-- 42_rx_parser.md R133: with the buffer full the byte is dropped and the error latched, whatever the phase; from states
that meet R52 this happens in `ERROR` only, so BUFFER_OVERRUN is never recorded. -/
def Obligations.RxByteOverflowIsDropped : Prop :=
  (∀ (s : State) (b : Byte), s.cfg.legal = true → s.rxPhase ≠ .done → s.cfg.rxCap ≤ s.rxIndex →
      exec (.rxByte b) s = .next
        { s with
          rxDeadline := s.cfg.timeoutBudget
          rxLast := s.now % 2 ^ s.cfg.tickBits
          rxPhase := .error
          rxErrCause := if s.rxPhase = .error then s.rxErrCause else .bufferOverrun
          status := .ok })
    ∧ (∀ s : State, s.cfg.legal = true → Inv s → s.rxPhase ≠ .done → s.cfg.rxCap ≤ s.rxIndex → s.rxPhase = .error)
    ∧ ∀ s t : State, Inv s → s.rxErrCause ≠ .bufferOverrun → step s = .next t → t.rxErrCause ≠ .bufferOverrun

/-- 42_rx_parser.md R136, R137 and R138: the two sync bytes, in normal mode and in resend sub-mode, and a byte after a
complete control frame. -/
def Obligations.SyncBytesSelectTheMode : Prop :=
  ∀ (s t : State) (b : Byte), s.rxIndex < s.cfg.rxCap → exec (.rxByte b) s = .next t →
    (s.rxPhase = .sync0 →
        (b = 0xFF → t.rxPhase = .sync1 ∧ t.rxRrq = false ∧ t.rxErrCause = s.rxErrCause)
          ∧ (b = 0x00 → s.cfg.resendEn = true → t.rxPhase = .sync1 ∧ t.rxRrq = true ∧ t.rxErrCause = s.rxErrCause)
          ∧ (b ≠ 0xFF → ¬(b = 0x00 ∧ s.cfg.resendEn = true) →
              t.rxPhase = .error ∧ t.rxErrCause = .header ∧ t.rxRrq = s.rxRrq))
      ∧ (s.rxPhase = .sync1 → s.rxRrq = false →
          (b = 0x55 → t.rxPhase = .id ∧ t.rxErrCause = s.rxErrCause)
            ∧ (b ≠ 0x55 → t.rxPhase = .error ∧ t.rxErrCause = .header))
      ∧ (s.rxPhase = .sync1 → s.rxRrq = true →
          (b = 0xAA → t.rxPhase = .rrq ∧ t.rxErrCause = s.rxErrCause)
            ∧ (b ≠ 0xAA → t.rxPhase = .error ∧ t.rxErrCause = .header))
      ∧ (s.rxPhase = .rrq → t.rxPhase = .error ∧ t.rxErrCause = .header)

/-- 42_rx_parser.md R140: the length byte sets both lengths, without wrap, even when it is a SIZE error because the frame
does not fit. The id byte (R139) is stored, folded and never an error. -/
def Obligations.IdAndLengthBytes : Prop :=
  ∀ (s t : State) (b : Byte), s.rxIndex < s.cfg.rxCap → exec (.rxByte b) s = .next t →
    (s.rxPhase = .id →
        t.rxPhase = .len ∧ t.rxFrameId = b ∧ t.rxCrc = crcUpdate s.rxCrc b ∧ t.rxErrCause = s.rxErrCause)
      ∧ (s.rxPhase = .len →
          t.rxPlen.toNat = b.toNat + 1 ∧ t.rxExpected.toNat = b.toNat + 7
            ∧ (s.cfg.rxCap < b.toNat + 7 → t.rxPhase = .error ∧ t.rxErrCause = .size)
            ∧ (b.toNat + 7 ≤ s.cfg.rxCap → t.rxPhase = .payload ∧ t.rxErrCause = s.rxErrCause))

/-- 42_rx_parser.md R141 and R142: payload bytes are stored, folded and counted off, and the CRC low byte is stored and
folded like one; neither is checked. -/
def Obligations.PayloadBytesAreCountedOff : Prop :=
  ∀ (s t : State) (b : Byte), s.rxIndex < s.cfg.rxCap → exec (.rxByte b) s = .next t →
    (s.rxPhase = .payload →
        t.rxByte s.rxIndex = b ∧ t.rxCrc = crcUpdate s.rxCrc b ∧ t.rxErrCause = s.rxErrCause ∧ t.rxPlen = s.rxPlen
          ∧ t.rxPhase = if s.rxIndex = 3 + s.rxPlen.toNat then .crclo else .payload)
      ∧ (s.rxPhase = .crclo →
          t.rxByte s.rxIndex = b ∧ t.rxCrc = crcUpdate s.rxCrc b ∧ t.rxErrCause = s.rxErrCause ∧ t.rxPhase = .crchi)

/-- 42_rx_parser.md R146 (with R144): the CRC test, then the duplicate test, then acceptance, which records the id and
exposes the payload; a rejected frame does not update `rx_last_id`. -/
def Obligations.CrcHighByteValidates : Prop :=
  ∀ (s t : State) (b : Byte), s.rxIndex < s.cfg.rxCap → s.rxPhase = .crchi → exec (.rxByte b) s = .next t →
    (crcUpdate s.rxCrc b ≠ 0 → t.rxPhase = .error ∧ t.rxErrCause = .crc ∧ t.rxLastId = s.rxLastId)
      ∧ (crcUpdate s.rxCrc b = 0 → s.cfg.idEn = true → s.rxFrameId = s.rxLastId →
          t.rxPhase = .error ∧ t.rxErrCause = .duplicateId ∧ t.rxLastId = s.rxLastId)
      ∧ (crcUpdate s.rxCrc b = 0 → ¬(s.cfg.idEn = true ∧ s.rxFrameId = s.rxLastId) →
          t.rxPhase = .done ∧ t.rxErrCause = s.rxErrCause
            ∧ t.rxLastId = (if s.cfg.idEn = true then s.rxFrameId else s.rxLastId)
            ∧ (4 + s.rxPlen.toNat ≤ s.cfg.rxCap →
                rxPayload t = .ok (some (Memory.readRange .rx t.rxBuf 4 s.rxPlen.toNat))))

/-- 42_rx_parser.md R147 (with R132 to R134): in `ERROR` a byte is absorbed, stored while there is room and dropped
after, and the first cause stays. -/
def Obligations.ErrorAbsorbsBytes : Prop :=
  ∀ (s : State) (b : Byte), s.cfg.legal = true → s.rxPhase = .error →
    ∃ t : State, exec (.rxByte b) s = .next t
      ∧ t = { s with
              rxDeadline := s.cfg.timeoutBudget
              rxLast := s.now % 2 ^ s.cfg.tickBits
              rxBuf := t.rxBuf
              rxCrc := if s.rxIndex < s.cfg.rxCap then crcUpdate s.rxCrc b else s.rxCrc
              rxIndex := if s.rxIndex < s.cfg.rxCap then s.rxIndex + 1 else s.rxIndex
              status := .ok }
      ∧ ∀ k, t.rxByte k = if k = s.rxIndex ∧ s.rxIndex < s.cfg.rxCap then b else s.rxByte k

/-- The frame of RX_BYTE (10_state.md R46: a register is written only by the commands its rule names; 42_rx_parser.md
R130 to R147): the whole transmit side, the accumulator and the counter are kept; each receive register is kept in
every phase but the ones whose rule writes it. -/
def Obligations.RxByteFrame : Prop :=
  ∀ (s t : State) (b : Byte), exec (.rxByte b) s = .next t →
    t.cfg = s.cfg ∧ (∀ k, t.txByte k = s.txByte k) ∧ t.txSrc = s.txSrc ∧ t.txCursor = s.txCursor
      ∧ t.txRemaining = s.txRemaining ∧ t.txLastLen = s.txLastLen ∧ t.txSeq = s.txSeq ∧ t.crcAcc = s.crcAcc
      ∧ t.errCount = s.errCount ∧ t.commands = s.commands ∧ t.now = s.now
      ∧ (s.rxPhase ≠ .sync0 → t.rxRrq = s.rxRrq)
      ∧ (s.rxPhase ≠ .id → t.rxFrameId = s.rxFrameId)
      ∧ (s.rxPhase ≠ .len → t.rxPlen = s.rxPlen ∧ t.rxExpected = s.rxExpected)
      ∧ (¬(s.rxPhase = .crchi ∧ t.rxPhase = .done ∧ s.cfg.idEn = true) → t.rxLastId = s.rxLastId)
      ∧ (t.rxPhase ≠ .error ∨ s.rxPhase = .error → t.rxErrCause = s.rxErrCause)
      ∧ (∀ k, k ≠ s.rxIndex → t.rxByte k = s.rxByte k)

/-- 42_rx_parser.md R151 with 41_crc.md R113: a well-formed frame that fits, fed from `SYNC0`, reaches `DONE` after
exactly P + 6 bytes, at whatever times they arrive, with its payload exposed; a control frame reaches `RRQ` after 2. -/
def Obligations.WellFormedFrameReachesDone : Prop :=
  (∀ (s : State) (id : Byte) (payload : List Byte) (times : List Nat),
      s.cfg.legal = true → s.rxPhase = .sync0 → s.rxIndex = 0 → s.rxCrc = 0xFFFF →
      1 ≤ payload.length → payload.length ≤ 256 → payload.length + 6 ≤ s.cfg.rxCap →
      (s.cfg.idEn = true → id ≠ s.rxLastId) → times.length = payload.length + 6 →
        (∃ t : State, runAll (feed ((wireFrame id payload).zip times)) s = .next t ∧ t.rxPhase = .done
          ∧ t.rxPlen.toNat = payload.length ∧ rxPayload t = .ok (some payload))
        ∧ ∀ k, k < payload.length + 6 →
            ∃ u : State, runAll (feed (((wireFrame id payload).zip times).take k)) s = .next u ∧ u.rxPhase ≠ .done)
    ∧ ∀ (s : State) (t₀ t₁ : Nat),
        s.cfg.legal = true → s.rxPhase = .sync0 → s.rxIndex = 0 → s.cfg.resendEn = true →
          ∃ t : State, runAll (feed [(0x00, t₀), (0xAA, t₁)]) s = .next t ∧ t.rxPhase = .rrq

/-! ## RX_IDLE, the timeout and RX_RELEASE -/

/-- 44_timeout_and_tick.md R191: both cases of the source's formula equal the modular one, which is at most
`max_tick`; and the source's example. -/
def Obligations.ElapsedEqualsSourceFormula : Prop :=
  (∀ w last now : Nat, last < 2 ^ w → now < 2 ^ w →
      elapsedTicks w last now = (if last ≤ now then now - last else (2 ^ w - 1 - last) + now + 1)
        ∧ elapsedTicks w last now ≤ 2 ^ w - 1)
    ∧ elapsedTicks 16 0xFFF0 0x0010 = 32

/-- 44_timeout_and_tick.md R190 and R192: RX_IDLE is refused in `DONE`; otherwise it keeps the sample time whether or not
the timeout fires, and short of the deadline it spends the budget and changes nothing else. -/
def Obligations.RxIdleSpendsTheBudget : Prop :=
  ∀ (s : State) (elapsed : Nat), s.cfg.legal = true →
    elapsed = elapsedTicks s.cfg.tickBits s.rxLast (s.now % 2 ^ s.cfg.tickBits) →
      (s.rxPhase = .done → exec .rxIdle s = .next { s with status := .busy })
        ∧ (s.rxPhase ≠ .done → elapsed < s.rxDeadline →
            exec .rxIdle s = .next
              { s with
                rxLast := s.now % 2 ^ s.cfg.tickBits
                rxDeadline := s.rxDeadline - elapsed
                status := .ok })
        ∧ (s.rxPhase ≠ .done → s.rxDeadline ≤ elapsed →
            ∃ t : State, exec .rxIdle s = .next t ∧ t.rxLast = s.now % 2 ^ s.cfg.tickBits ∧ t.rxPhase = .sync0)

/-- 44_timeout_and_tick.md R193, R195 and R196, 43_tx.md R176: a timeout that finds a partial frame or an error counts
one error, keeps the first cause, queues the control frame only with `RESEND_EN` and TX idle, and returns to idle. -/
def Obligations.TimeoutResolvesAnError : Prop :=
  ∀ s : State, s.cfg.legal = true →
    (0 < s.rxIndex ∧ s.rxPhase ≠ .error ∧ s.rxPhase ≠ .rrq ∧ s.rxPhase ≠ .done ∨ s.rxPhase = .error) →
    s.rxDeadline ≤ elapsedTicks s.cfg.tickBits s.rxLast (s.now % 2 ^ s.cfg.tickBits) →
      exec .rxIdle s = .next
        { s with
          rxLast := s.now % 2 ^ s.cfg.tickBits
          rxErrCause := if s.rxPhase = .error then s.rxErrCause else .timeout
          errCount := (s.errCount + 1) % 2 ^ s.cfg.errBits
          txSrc := if s.cfg.resendEn = true ∧ s.txRemaining = 0 then .ctrl else s.txSrc
          txCursor := if s.cfg.resendEn = true ∧ s.txRemaining = 0 then 0 else s.txCursor
          txRemaining := if s.cfg.resendEn = true ∧ s.txRemaining = 0 then 2 else s.txRemaining
          rxPhase := .sync0
          rxRrq := false
          rxIndex := 0
          rxExpected := 0
          rxPlen := 0
          rxCrc := 0xFFFF
          rxDeadline := 0
          status := .ok }

/-- 44_timeout_and_tick.md R194, R195 and R196, 43_tx.md R177: a timeout that finds a complete resend-request re-arms the
retained frame only when there is one and TX is idle, counts no error, and returns to idle. -/
def Obligations.TimeoutAnswersAResendRequest : Prop :=
  ∀ s : State, s.cfg.legal = true → s.rxPhase = .rrq →
    s.rxDeadline ≤ elapsedTicks s.cfg.tickBits s.rxLast (s.now % 2 ^ s.cfg.tickBits) →
      exec .rxIdle s = .next
        { s with
          rxLast := s.now % 2 ^ s.cfg.tickBits
          txSrc := if s.txLastLen ≠ 0 ∧ s.txRemaining = 0 then .frame else s.txSrc
          txCursor := if s.txLastLen ≠ 0 ∧ s.txRemaining = 0 then 0 else s.txCursor
          txRemaining := if s.txLastLen ≠ 0 ∧ s.txRemaining = 0 then s.txLastLen else s.txRemaining
          rxPhase := .sync0
          rxRrq := false
          rxIndex := 0
          rxExpected := 0
          rxPlen := 0
          rxCrc := 0xFFFF
          rxDeadline := 0
          status := .ok }

/-- 44_timeout_and_tick.md R197: on an idle line RX_IDLE only keeps the sample time. The premises are invariants of the
model (R52 and 42_rx_parser.md R145), kept by every step. -/
def Obligations.IdleLineHasNoSideEffect : Prop :=
  ∀ s : State, s.cfg.legal = true → Inv s → CrcCoverage s → s.rxPhase = .sync0 →
    exec .rxIdle s = .next { s with rxLast := s.now % 2 ^ s.cfg.tickBits, status := .ok }

/-- 44_timeout_and_tick.md R198: a timeout with bytes stored finds one of eight phases, counts at most one error (none in
`RRQ`) and returns to `SYNC0`; every later RX_IDLE of the same gap, however many, counts none. -/
def Obligations.OneErrorPerGap : Prop :=
  ∀ s t : State, Inv s → 0 < s.rxIndex → s.rxPhase ≠ .done →
    s.rxDeadline ≤ elapsedTicks s.cfg.tickBits s.rxLast (s.now % 2 ^ s.cfg.tickBits) → exec .rxIdle s = .next t →
      s.rxPhase ∈ [Phase.sync1, .id, .len, .payload, .crclo, .crchi, .rrq, .error]
        ∧ t.rxPhase = .sync0
        ∧ t.errCount = (if s.rxPhase = .rrq then s.errCount else (s.errCount + 1) % 2 ^ s.cfg.errBits)
        ∧ ∀ times : List Nat,
            ∃ u : State, runAll (times.map fun v => (.rxIdle, some v)) t = .next u ∧ u.errCount = t.errCount
              ∧ u.rxPhase = .sync0 ∧ u.rxErrCause = t.rxErrCause ∧ u.txRemaining = t.txRemaining

/-- RX_IDLE completes in every state of a legal configuration, and its frame (44_timeout_and_tick.md R190, R196): both
buffers, the ids, the retained length, the sequence id and the accumulator are kept, and a transmission in progress is
not disturbed (70_reset_and_hazards.md R265). -/
def Obligations.RxIdleCompletesAndKeepsTheRest : Prop :=
  ∀ s : State, s.cfg.legal = true →
    ∃ t : State, exec .rxIdle s = .next t ∧ t.cfg = s.cfg
      ∧ (∀ k, t.rxByte k = s.rxByte k) ∧ (∀ k, t.txByte k = s.txByte k)
      ∧ t.rxFrameId = s.rxFrameId ∧ t.rxLastId = s.rxLastId ∧ t.txLastLen = s.txLastLen ∧ t.txSeq = s.txSeq
      ∧ t.crcAcc = s.crcAcc ∧ t.commands = s.commands ∧ t.now = s.now
      ∧ (s.txRemaining ≠ 0 → t.txSrc = s.txSrc ∧ t.txCursor = s.txCursor ∧ t.txRemaining = s.txRemaining)

/-- 44_timeout_and_tick.md R200: RX_RELEASE, its encoding, its effect in `DONE`, its refusal elsewhere, and its frame. -/
def Obligations.RxReleaseReturnsToIdle : Prop :=
  encode .rxRelease = 0x50000000
    ∧ ∀ s : State, s.cfg.legal = true →
        (s.rxPhase = .done →
            exec .rxRelease s = .next
              { s with
                rxPhase := .sync0
                rxRrq := false
                rxIndex := 0
                rxExpected := 0
                rxPlen := 0
                rxCrc := 0xFFFF
                rxDeadline := 0
                status := .ok })
          ∧ (s.rxPhase ≠ .done → exec .rxRelease s = .next { s with status := .unavailable })

/-! ## Rules about the whole machine -/

/-- 44_timeout_and_tick.md R201: RX_RELEASE is the only way out of `DONE`. -/
def Obligations.DoneIsLeftOnlyByRelease : Prop :=
  ∀ s t : State, step s = .next t → s.rxPhase = .done → t.rxPhase ≠ .done →
    ∃ (c : Command) (rest : List Command), s.commands = c :: rest ∧ decode c.word = .ok .rxRelease

/-- 60_exceptions.md R225: a timeout is the only exit from `ERROR`; it counts the error, queues the control frame if it
may, returns to idle and keeps the cause. -/
def Obligations.ErrorIsLeftOnlyByTimeout : Prop :=
  ∀ s t : State, step s = .next t → s.rxPhase = .error → t.rxPhase ≠ .error →
    ∃ (c : Command) (rest : List Command), s.commands = c :: rest ∧ decode c.word = .ok .rxIdle
      ∧ s.rxDeadline ≤ elapsedTicks s.cfg.tickBits s.rxLast (c.now % 2 ^ s.cfg.tickBits)
      ∧ t.errCount = (s.errCount + 1) % 2 ^ s.cfg.errBits ∧ t.rxErrCause = s.rxErrCause
      ∧ (s.cfg.resendEn = true → s.txRemaining = 0 → t.txSrc = .ctrl ∧ t.txCursor = 0 ∧ t.txRemaining = 2)
      ∧ (¬(s.cfg.resendEn = true ∧ s.txRemaining = 0) →
          t.txSrc = s.txSrc ∧ t.txCursor = s.txCursor ∧ t.txRemaining = s.txRemaining)
      ∧ t.rxPhase = .sync0 ∧ t.rxRrq = false ∧ t.rxIndex = 0 ∧ t.rxExpected = 0 ∧ t.rxPlen = 0 ∧ t.rxCrc = 0xFFFF
      ∧ t.rxDeadline = 0

/-- 10_state.md R32: the error counter moves only by a timeout that finds `ERROR` (forced or standing), by one, modulo
its width; and every such timeout moves it. -/
def Obligations.ErrorCounterCountsTimeoutsOnly : Prop :=
  (∀ s t : State, step s = .next t → t.errCount ≠ s.errCount →
      t.errCount = (s.errCount + 1) % 2 ^ s.cfg.errBits
        ∧ ∃ (c : Command) (rest : List Command), s.commands = c :: rest ∧ decode c.word = .ok .rxIdle
            ∧ s.rxDeadline ≤ elapsedTicks s.cfg.tickBits s.rxLast (c.now % 2 ^ s.cfg.tickBits)
            ∧ (s.rxPhase = .error ∨ 0 < s.rxIndex ∧ s.rxPhase ≠ .rrq ∧ s.rxPhase ≠ .done))
    ∧ ∀ (s t : State) (c : Command) (rest : List Command), step s = .next t → s.commands = c :: rest →
        decode c.word = .ok .rxIdle → s.rxDeadline ≤ elapsedTicks s.cfg.tickBits s.rxLast (c.now % 2 ^ s.cfg.tickBits) →
        (s.rxPhase = .error ∨ 0 < s.rxIndex ∧ s.rxPhase ≠ .rrq ∧ s.rxPhase ≠ .done) →
          t.errCount = (s.errCount + 1) % 2 ^ s.cfg.errBits

/-! ## Transmit -/

/-- 43_tx.md R160 (with 00_scope.md R13): TX_SLOT_WRITE, which words it has, when it is refused, and that otherwise it
writes `tx_buf[4 + i]` and nothing else. -/
def Obligations.TxSlotWriteStoresOneByte : Prop :=
  (∀ (w : Word) (i : Len) (b : Byte), decode w = .ok (.txSlotWrite i b) ↔
      w &&& 0xFE00FF00 = 0x60000000 ∧ w.extractLsb' 16 9 = i ∧ w.extractLsb' 0 8 = b)
    ∧ ∀ (s : State) (i : Len) (b : Byte), s.cfg.legal = true →
        (s.txRemaining ≠ 0 ∨ min 256 (s.cfg.txCap - 6) ≤ i.toNat →
            exec (.txSlotWrite i b) s = .next { s with status := .unavailable })
          ∧ (s.txRemaining = 0 → i.toNat < min 256 (s.cfg.txCap - 6) →
              ∃ t : State, exec (.txSlotWrite i b) s = .next t ∧ t = { s with txBuf := t.txBuf, status := .ok }
                ∧ ∀ k, t.txByte k = if k = slotAddress i then b else s.txByte k)

/-- 43_tx.md R170: a send is refused with `BUSY`, and changes nothing, when any of the four conditions holds. -/
def Obligations.TxSendIsRefused : Prop :=
  ∀ (s : State) (n : Len), s.cfg.legal = true →
    (s.txRemaining ≠ 0 ∨ n = 0 ∨ 256 < n.toNat ∨ s.cfg.txCap < n.toNat + 6) →
      exec (.txSend n) s = .next { s with status := .busy }

/-- 43_tx.md R166, R167 and R168 (with R169): a send that is not refused builds the wire frame of 30_encoding.md R81 and
R84 around the slot's payload, arms the drainer, and changes no byte past the frame. -/
def Obligations.TxSendBuildsTheWireFrame : Prop :=
  ∀ (s : State) (n : Len), s.cfg.legal = true →
    s.txRemaining = 0 → n ≠ 0 → n.toNat ≤ 256 → n.toNat + 6 ≤ s.cfg.txCap →
      ∃ t : State, exec (.txSend n) s = .next t
        ∧ t = { s with
                txBuf := t.txBuf
                txSrc := .frame
                txCursor := 0
                txRemaining := n + 6
                txLastLen := if s.cfg.resendEn = true then n + 6 else s.txLastLen
                txSeq := if s.cfg.idEn = true then s.txSeq + 1 else s.txSeq
                status := .ok }
        ∧ t.txRemaining.toNat = n.toNat + 6
        ∧ Memory.readRange .tx t.txBuf 0 (n.toNat + 6)
            = wireFrame (if s.cfg.idEn = true then s.txSeq + 1 else 0x00) (Memory.readRange .tx s.txBuf 4 n.toNat)
        ∧ ∀ k, n.toNat + 6 ≤ k → t.txByte k = s.txByte k

/-- 43_tx.md R172: TX_ACCEPT, its encoding, its refusal when idle, its effect and its frame. -/
def Obligations.TxAcceptAdvancesTheCursor : Prop :=
  encode .txAccept = 0x80000000
    ∧ ∀ s : State, s.cfg.legal = true →
        (s.txRemaining = 0 → exec .txAccept s = .next { s with status := .unavailable })
          ∧ (s.txRemaining ≠ 0 → s.txCursor.toNat < 511 →
              ∃ t : State, exec .txAccept s = .next t
                ∧ t = { s with txCursor := t.txCursor, txRemaining := t.txRemaining, status := .ok }
                ∧ t.txCursor.toNat = s.txCursor.toNat + 1 ∧ t.txRemaining.toNat + 1 = s.txRemaining.toNat)

/-- The model's choice, log 10 (10_state.md R53): TX_ACCEPT stops only in a state whose cursor cannot be incremented in
its 9 bits, and no state that meets R52 is such a state. -/
def Obligations.TxAcceptStopsOnlyAtTheTopCursor : Prop :=
  (∀ s : State, exec .txAccept s = .refused .unreachableState ↔
      s.cfg.legal = true ∧ s.txRemaining ≠ 0 ∧ s.txCursor = 511)
    ∧ ∀ s : State, Inv s → exec .txAccept s ≠ .refused .unreachableState

/-- 43_tx.md R173 and R174, 10_state.md R50: TX_ACCEPTs hand over the bytes of the source in order from the cursor on,
and leave the buffer as it was. -/
def Obligations.DrainHandsOverInOrder : Prop :=
  ∀ (s : State) (k : Nat), s.cfg.legal = true → Inv s → k ≤ s.txRemaining.toNat →
    ∃ t : State,
      handOver k s = .next
        ((match s.txSrc with
          | .frame => Memory.readRange .tx s.txBuf s.txCursor.toNat k
          | .ctrl => ([0x00, 0xAA].drop s.txCursor.toNat).take k), t)
      ∧ t.txRemaining.toNat + k = s.txRemaining.toNat ∧ t.txBuf = s.txBuf ∧ t.txLastLen = s.txLastLen
      ∧ (0 < k → t.txCursor.toNat = s.txCursor.toNat + k)

/-- 43_tx.md R178: a resend hands over the retained frame's bytes as they stand, with the sequence id, and the buffer
with its id and CRC bytes, untouched. -/
def Obligations.ResendIsVerbatim : Prop :=
  ∀ s t : State, Inv s → s.rxPhase = .rrq → s.txLastLen ≠ 0 → s.txRemaining = 0 →
    s.rxDeadline ≤ elapsedTicks s.cfg.tickBits s.rxLast (s.now % 2 ^ s.cfg.tickBits) → exec .rxIdle s = .next t →
      t.txSeq = s.txSeq ∧ t.txBuf = s.txBuf
        ∧ ∃ u : State,
            handOver s.txLastLen.toNat t = .next (Memory.readRange .tx s.txBuf 0 s.txLastLen.toNat, u)
              ∧ u.txRemaining = 0

/-- 30_encoding.md R84, 42_rx_parser.md R151, 43_tx.md R165 and R174: what one instance sends, another receives. The
payload in the slot of `a` is sent, all its frame's bytes are handed over, and fed to `b` at any one time they reach
`DONE` with exactly that payload. -/
def Obligations.SentPayloadArrives : Prop :=
  ∀ (a a' b : State) (n : Len) (time : Nat),
    a.txRemaining = 0 → n ≠ 0 → n.toNat ≤ 256 → n.toNat + 6 ≤ a.cfg.txCap → exec (.txSend n) a = .next a' →
    b.cfg.legal = true → b.rxPhase = .sync0 → b.rxIndex = 0 → b.rxCrc = 0xFFFF → n.toNat + 6 ≤ b.cfg.rxCap →
    (b.cfg.idEn = true → (if a.cfg.idEn = true then a.txSeq + 1 else 0x00) ≠ b.rxLastId) →
      ∃ (wire : List Byte) (a'' b' : State),
        handOver (n.toNat + 6) a' = .next (wire, a'') ∧ a''.txRemaining = 0
          ∧ runAll (feed (wire.map fun x => (x, time))) b = .next b'
          ∧ rxPayload b' = .ok (some (Memory.readRange .tx a.txBuf 4 n.toNat))

/-! ## Invariants -/

/-- Derived from 10_state.md R54: the reset values of every register, for every configuration; each buffer byte is its
free draw. The form of the draw is the model's choice (DESIGN CHOICE, log 7), and so is the last clause: `State.reset` is
one of these states, with a configuration the model chose (DESIGN CHOICE, log 2). -/
def Obligations.ResetValues : Prop :=
  (∀ c : Config, ∀ s : State, s = State.resetFor c →
      s.rxPhase = .sync0 ∧ s.rxRrq = false ∧ s.rxIndex = 0 ∧ s.rxExpected = 0 ∧ s.rxPlen = 0 ∧ s.rxCrc = 0xFFFF
        ∧ s.rxFrameId = 0x00 ∧ s.rxLastId = 0x00 ∧ s.rxDeadline = 0 ∧ s.rxLast = 0 ∧ s.rxErrCause = .none
        ∧ s.errCount = 0 ∧ (∀ k, s.rxByte k = Config.unwrittenByte .rx k)
        ∧ (∀ k, s.txByte k = Config.unwrittenByte .tx k) ∧ s.txSrc = .frame ∧ s.txCursor = 0 ∧ s.txRemaining = 0
        ∧ s.txLastLen = 0 ∧ s.txSeq = 0x00 ∧ s.crcAcc = 0xFFFF)
    ∧ ∃ c : Config, c.legal = true ∧ State.reset = State.resetFor c

/-- Every reset state of a legal configuration meets the invariants below. -/
def Obligations.ResetMeetsTheInvariants : Prop :=
  ∀ c : Config, c.legal = true →
    Inv (State.resetFor c) ∧ WidthInv (State.resetFor c) ∧ BufferInv (State.resetFor c)
      ∧ CrcCoverage (State.resetFor c)

/-- 10_state.md R52: every reachable state satisfies its eleven invariants, whatever commands the host issues. -/
def Obligations.ReachableStatesSatisfyTheElevenInvariants : Prop :=
  ∀ s : State, Reachable s →
    IndexInv s ∧ LengthInv s ∧ ResendModeInv s ∧ DeadlineInv s ∧ DrainInv s ∧ IdInv s

/-- 10_state.md R52, with R24, R25 and 44_timeout_and_tick.md R208, and the clause of log 21: every step keeps `Inv`. -/
def Obligations.StepKeepsTheInvariants : Prop :=
  ∀ s t : State, Inv s → step s = .next t → Inv t

/-- 10_state.md R23 to R33, 20_memory.md R60 to R62: every step keeps the registers within their widths and both buffers
in canonical form and within their capacities. -/
def Obligations.StepKeepsWidthsAndBuffers : Prop :=
  (∀ s t : State, WidthInv s → step s = .next t → WidthInv t)
    ∧ ∀ s t : State, BufferInv s → step s = .next t → BufferInv t

/-- 42_rx_parser.md R145: every step keeps `rx_crc` equal to the CRC, from 0xFFFF, of the bytes stored for the current
frame from index 0, and 0 in `DONE`. -/
def Obligations.StepKeepsReceiveCrcCoverage : Prop :=
  ∀ s t : State, CrcCoverage s → step s = .next t → CrcCoverage t

/-! ## Ports and the tick procedure -/

/-- 10_state.md R51: in `DONE` the payload view has `rx_plen` bytes, byte j of it being `rx_buf[4 + j]`; elsewhere it is
none. -/
def Obligations.PayloadPortShowsThePayload : Prop :=
  ∀ s : State, Inv s →
    (s.rxPhase = .done →
        ∃ l : List Byte, rxPayload s = .ok (some l) ∧ l.length = s.rxPlen.toNat
          ∧ ∀ j, j < s.rxPlen.toNat → l[j]? = some (s.rxByte (4 + j)))
      ∧ (s.rxPhase ≠ .done → rxPayload s = .ok none)

/-- 44_timeout_and_tick.md R212 (with 42_rx_parser.md R150): as long as the source has a byte on every poll, a tick whose
receiver is in `ERROR` does not return, however many bytes come. -/
def Obligations.NoiseKeepsTheTickRunning : Prop :=
  ∀ (s : State) (bytes : List (Byte × Nat)), s.cfg.legal = true → Inv s → s.rxPhase = .error →
    ∃ t : State, pollLoop (bytes.map fun p => ⟨some p.1, p.2⟩) s = .next (.running t) ∧ t.rxPhase = .error
      ∧ t.errCount = s.errCount

/-- 44_timeout_and_tick.md R207, R209 and R210: the handler is called only with a completed frame and TX idle after the
drain; while TX is busy the frame waits, and no byte is taken from the source. -/
def Obligations.HandlerWaitsForTheTransmitter : Prop :=
  ∀ (handler : Nat → List Byte → Reply) (answers : List Bool) (polls : List Poll) (s : State) (d : Drained),
    drain answers s = .next d →
      (d.state.rxPhase = .done → d.state.txRemaining ≠ 0 →
          tick handler answers polls s = .next ⟨d.sunk, d.answers, none, .exited d.state polls⟩)
        ∧ ∀ r : Ticked, tick handler answers polls s = .next r → r.called ≠ none →
            d.state.rxPhase = .done ∧ d.state.txRemaining = 0
end

