-- ==== Sys2Proof/Laws/Crc.lean ====
section
/-!
SUPPORT. Small laws of the CRC function and of the frame forms (spec/41_crc.md R110 to R113, 30_encoding.md R81).
-/

namespace Sys2Proof.Machine

@[simp] theorem crcFold_nil (c : Crc) : crcFold c [] = c := rfl

@[simp] theorem crcFold_cons (c : Crc) (b : Byte) (bs : List Byte) :
    crcFold c (b :: bs) = crcFold (crcUpdate c b) bs := rfl

theorem crcFold_append (c : Crc) (as bs : List Byte) : crcFold c (as ++ bs) = crcFold (crcFold c as) bs := by
  induction as generalizing c with
  | nil => rfl
  | cons a as ih => simp [ih]

/-- The table's first entry (R111). -/
theorem crcTable_zero : crcTable 0 = 0 := by decide

@[simp] theorem length_frameHeader (id : Byte) (n : Nat) : (frameHeader id n).length = 4 := rfl

@[simp] theorem length_checkBytes (l : List Byte) : (checkBytes l).length = 2 := rfl

/-- "Invariant: total wire length = payload length + 6." -/
@[simp] theorem length_wireFrame (id : Byte) (p : List Byte) : (wireFrame id p).length = p.length + 6 := by
  simp [wireFrame]; omega

end Sys2Proof.Machine
end

