-- ==== Sys2Proof/Laws/Decode.lean ====
section
/-!
SUPPORT. The bits and the fields of a command word (spec/30_encoding.md R88).
-/

namespace Sys2Proof

/-- Every bit of a word that is put together from its fields. -/
theorem getLsbD_wordOf (op : BitVec 4) (arg : Len) (data : Byte) (i : Nat) :
    (wordOf op arg data).getLsbD i =
      if i < 8 then data.getLsbD i
      else if i < 16 then false
      else if i < 25 then arg.getLsbD (i - 16)
      else if i < 28 then false
      else op.getLsbD (i - 28) := by
  have h : (wordOf op arg data).getLsbD i = ((((op ++ 0#3) ++ arg) ++ 0#8) ++ data).getLsbD i := rfl
  rw [h]
  simp only [BitVec.getLsbD_append, BitVec.getLsbD_zero, Nat.sub_sub]
  split_ifs <;> first | rfl | (exfalso; omega)

@[simp] theorem opField_wordOf (op : BitVec 4) (arg : Len) (data : Byte) : opField (wordOf op arg data) = op := by
  apply BitVec.eq_of_getLsbD_eq
  intro i hi
  simp only [opField, BitVec.getLsbD_extractLsb', getLsbD_wordOf]
  interval_cases i <;> simp

@[simp] theorem rsv1Field_wordOf (op : BitVec 4) (arg : Len) (data : Byte) :
    rsv1Field (wordOf op arg data) = 0 := by
  apply BitVec.eq_of_getLsbD_eq
  intro i hi
  simp only [rsv1Field, BitVec.getLsbD_extractLsb', getLsbD_wordOf]
  interval_cases i <;> simp

@[simp] theorem argField_wordOf (op : BitVec 4) (arg : Len) (data : Byte) : argField (wordOf op arg data) = arg := by
  apply BitVec.eq_of_getLsbD_eq
  intro i hi
  simp only [argField, BitVec.getLsbD_extractLsb', getLsbD_wordOf]
  interval_cases i <;> simp

@[simp] theorem rsv0Field_wordOf (op : BitVec 4) (arg : Len) (data : Byte) :
    rsv0Field (wordOf op arg data) = 0 := by
  apply BitVec.eq_of_getLsbD_eq
  intro i hi
  simp only [rsv0Field, BitVec.getLsbD_extractLsb', getLsbD_wordOf]
  interval_cases i <;> simp

@[simp] theorem dataField_wordOf (op : BitVec 4) (arg : Len) (data : Byte) :
    dataField (wordOf op arg data) = data := by
  apply BitVec.eq_of_getLsbD_eq
  intro i hi
  simp only [dataField, BitVec.getLsbD_extractLsb', getLsbD_wordOf]
  interval_cases i <;> simp

/-- A word whose reserved fields are 0 is put together from its other fields. -/
theorem wordOf_fields {w : Word} (h1 : rsv1Field w = 0) (h0 : rsv0Field w = 0) :
    wordOf (opField w) (argField w) (dataField w) = w := by
  have b1 := fun k => congrArg (fun v => BitVec.getLsbD v k) h1
  have b0 := fun k => congrArg (fun v => BitVec.getLsbD v k) h0
  simp only [rsv1Field, rsv0Field, BitVec.getLsbD_extractLsb'] at b1 b0
  apply BitVec.eq_of_getLsbD_eq
  intro i hi
  simp only [getLsbD_wordOf, opField, argField, dataField, BitVec.getLsbD_extractLsb']
  split_ifs with c8 c16 c25 c28
  · simp [c8]
  · have h := b0 (i - 8)
    rw [show 8 + (i - 8) = i by omega, show decide (i - 8 < 8) = true from decide_eq_true (by omega)] at h
    simpa using h.symm
  · rw [show 16 + (i - 16) = i by omega, show decide (i - 16 < 9) = true from decide_eq_true (by omega)]
    simp
  · have h := b1 (i - 25)
    rw [show 25 + (i - 25) = i by omega, show decide (i - 25 < 3) = true from decide_eq_true (by omega)] at h
    simpa using h.symm
  · rw [show 28 + (i - 28) = i by omega, show decide (i - 28 < 4) = true from decide_eq_true (by omega)]
    simp

/-- What passing the checks of R93 says. -/
theorem checkFields_ok {w : Word} {a d : Bool} {i j : Instr} :
    checkFields w a d i = .ok j ↔
      i = j ∧ rsv1Field w = 0 ∧ rsv0Field w = 0 ∧ (a = false → argField w = 0) ∧ (d = false → dataField w = 0) := by
  unfold checkFields
  split_ifs with hr ha hd
  · constructor
    · intro h; cases h
    · rintro ⟨-, h1, h0, -⟩
      exact absurd hr (by simp [h1, h0])
  · constructor
    · intro h; cases h
    · rintro ⟨-, -, -, h, -⟩
      exact absurd (h ha.1) ha.2
  · constructor
    · intro h; cases h
    · rintro ⟨-, -, -, -, h⟩
      exact absurd (h hd.1) hd.2
  · rw [not_or, not_not, not_not] at hr
    rw [not_and_not_right] at ha hd
    constructor
    · intro h; cases h; exact ⟨rfl, hr.1, hr.2, ha, hd⟩
    · rintro ⟨rfl, -⟩; rfl

end Sys2Proof
end

