-- ==== Sys2Proof/Laws/Memory.lean ====
section
/-!
SUPPORT. The laws of the buffers (spec/20_memory.md R60): a read after a write, the canonical form, the capacity, and
ranges.
-/

namespace Sys2Proof.Machine

/-! ## One byte -/

@[simp] theorem Memory.get?_set_same (m : Memory) (k : Nat) (v : Byte) : Memory.get? (Memory.set m k v) k = some v := by
  induction m with
  | nil => simp [Memory.set, Memory.get?]
  | cons c m ih =>
    obtain ⟨a, b⟩ := c
    unfold Memory.set
    split
    · simp [Memory.get?]
    · split
      · simp [Memory.get?]
      · next h => simp [Memory.get?, h, ih]

theorem Memory.get?_set_ne (m : Memory) {k j : Nat} (v : Byte) (h : j ≠ k) :
    Memory.get? (Memory.set m k v) j = Memory.get? m j := by
  induction m with
  | nil => simp [Memory.set, Memory.get?, h.symm]
  | cons c m ih =>
    obtain ⟨a, b⟩ := c
    unfold Memory.set
    split
    · simp [Memory.get?, h.symm]
    · split
      · next e => subst e; simp [Memory.get?, h.symm]
      · simp [Memory.get?, ih]

/-- A write changes exactly its own byte. -/
theorem Memory.read_set (sp : Space) (m : Memory) (k j : Nat) (v : Byte) :
    Memory.read sp (Memory.set m k v) j = if j = k then v else Memory.read sp m j := by
  by_cases e : j = k
  · subst e; simp [Memory.read]
  · simp [Memory.read, Memory.get?_set_ne m v e, e]

@[simp] theorem Memory.read_set_same (sp : Space) (m : Memory) (k : Nat) (v : Byte) :
    Memory.read sp (Memory.set m k v) k = v := by
  simp [Memory.read_set]

theorem Memory.read_set_ne (sp : Space) (m : Memory) {k j : Nat} (v : Byte) (h : j ≠ k) :
    Memory.read sp (Memory.set m k v) j = Memory.read sp m j := by
  simp [Memory.read_set, h]

/-! ## The canonical form and the capacity -/

theorem Memory.mem_set {m : Memory} {k : Nat} {v : Byte} {c : Host.Cell} (h : c ∈ Memory.set m k v) :
    c = (k, v) ∨ c ∈ m := by
  induction m with
  | nil => simpa [Memory.set] using h
  | cons d m ih =>
    obtain ⟨a, b⟩ := d
    unfold Memory.set at h
    split at h
    · simpa using h
    · split at h
      · rcases List.mem_cons.1 h with h | h
        · exact .inl h
        · exact .inr (List.mem_cons_of_mem _ h)
      · rcases List.mem_cons.1 h with h | h
        · exact .inr (h ▸ List.mem_cons_self)
        · exact (ih h).imp id (List.mem_cons_of_mem _)

/-- A write keeps the canonical form. -/
theorem Memory.set_wf {m : Memory} (h : Memory.wf m) (k : Nat) (v : Byte) : Memory.wf (Memory.set m k v) := by
  induction m with
  | nil => simp [Memory.set, Memory.wf]
  | cons d m ih =>
    obtain ⟨a, b⟩ := d
    have hd := List.pairwise_cons.1 h
    unfold Memory.set
    split
    · next hk =>
      refine List.pairwise_cons.2 ⟨fun c hc => ?_, h⟩
      rcases List.mem_cons.1 hc with rfl | hc
      · exact hk
      · exact lt_trans hk (hd.1 c hc)
    · split
      · next e => subst e; exact List.pairwise_cons.2 ⟨hd.1, hd.2⟩
      · next hk e =>
        refine List.pairwise_cons.2 ⟨fun c hc => ?_, ih hd.2⟩
        rcases Memory.mem_set hc with rfl | hc
        · show a < k
          omega
        · exact hd.1 c hc

/-- A write inside the capacity keeps every index inside it. -/
theorem Memory.set_within {cap : Nat} {m : Memory} (h : Memory.within cap m) {k : Nat} (hk : k < cap) (v : Byte) :
    Memory.within cap (Memory.set m k v) := by
  intro c hc
  rcases Memory.mem_set hc with rfl | hc
  · exact hk
  · exact h c hc

/-! ## Several bytes -/

theorem Memory.setMany_wf {m : Memory} (h : Memory.wf m) (k : Nat) (vs : List Byte) :
    Memory.wf (Memory.setMany m k vs) := by
  induction vs generalizing m k with
  | nil => exact h
  | cons v vs ih => exact ih (Memory.set_wf h k v) (k + 1)

theorem Memory.setMany_within {cap : Nat} {m : Memory} (h : Memory.within cap m) {k : Nat} {vs : List Byte}
    (hk : k + vs.length ≤ cap) : Memory.within cap (Memory.setMany m k vs) := by
  induction vs generalizing m k with
  | nil => exact h
  | cons v vs ih =>
    rw [List.length_cons] at hk
    exact ih (Memory.set_within h (by omega) v) (by omega)

/-- Consecutive writes leave every byte outside them alone. -/
theorem Memory.read_setMany_outside (sp : Space) (m : Memory) {k j : Nat} (vs : List Byte)
    (h : j < k ∨ k + vs.length ≤ j) : Memory.read sp (Memory.setMany m k vs) j = Memory.read sp m j := by
  induction vs generalizing m k with
  | nil => rfl
  | cons v vs ih =>
    rw [List.length_cons] at h
    rw [Memory.setMany, ih (Memory.set m k v) (by omega), Memory.read_set_ne _ _ _ (by omega)]

@[simp] theorem Memory.length_readRange (sp : Space) (m : Memory) (k n : Nat) :
    (Memory.readRange sp m k n).length = n := by
  induction n generalizing k with
  | zero => rfl
  | succ n ih => simp [Memory.readRange, ih]

/-- Byte `j` of a range. -/
theorem Memory.readRange_getElem? (sp : Space) (m : Memory) {k n j : Nat} (h : j < n) :
    (Memory.readRange sp m k n)[j]? = some (Memory.read sp m (k + j)) := by
  induction n generalizing k j with
  | zero => omega
  | succ n ih =>
    cases j with
    | zero => simp [Memory.readRange]
    | succ j =>
      simp only [Memory.readRange, List.getElem?_cons_succ]
      rw [ih (by omega), Nat.add_assoc, Nat.add_comm 1 j]

theorem Memory.readRange_append (sp : Space) (m : Memory) (k a b : Nat) :
    Memory.readRange sp m k (a + b) = Memory.readRange sp m k a ++ Memory.readRange sp m (k + a) b := by
  induction a generalizing k with
  | zero => simp [Memory.readRange]
  | succ a ih => rw [Nat.succ_add]; simp [Memory.readRange, ih, Nat.add_assoc, Nat.add_comm 1 a]

/-- Ranges that agree byte for byte are equal. -/
theorem Memory.readRange_congr (sp : Space) {m m' : Memory} {k n : Nat}
    (h : ∀ j, k ≤ j → j < k + n → Memory.read sp m j = Memory.read sp m' j) :
    Memory.readRange sp m k n = Memory.readRange sp m' k n := by
  induction n generalizing k with
  | zero => rfl
  | succ n ih =>
    rw [Memory.readRange, Memory.readRange, h k (le_refl k) (by omega), ih fun j hj hj' => h j (by omega) (by omega)]

/-- Consecutive writes read back as the bytes written. -/
theorem Memory.readRange_setMany (sp : Space) (m : Memory) (k : Nat) (vs : List Byte) :
    Memory.readRange sp (Memory.setMany m k vs) k vs.length = vs := by
  induction vs generalizing m k with
  | nil => rfl
  | cons v vs ih =>
    rw [List.length_cons, Memory.readRange, Memory.setMany, ih,
      Memory.read_setMany_outside _ _ _ (.inl (Nat.lt_succ_self k)), Memory.read_set_same]

/-- A range next to the byte written. -/
theorem Memory.readRange_set_succ (sp : Space) (m : Memory) (k n : Nat) (v : Byte) :
    Memory.readRange sp (Memory.set m (k + n) v) k (n + 1) = Memory.readRange sp m k n ++ [v] := by
  rw [Memory.readRange_append,
    Memory.readRange_congr (m' := m) sp fun j _ hj => Memory.read_set_ne sp m v (by omega)]
  simp [Memory.readRange]

end Sys2Proof.Machine
end

