-- ==== Sys2Proof/Laws/State.lean ====
section
/-!
SUPPORT. What each named update does to each field of the state: one lemma per field per update, so that no later proof
unfolds an update. An update under a condition has a lemma for each field it never changes.
-/

namespace Sys2Proof.Machine

/-! ## The return to idle (spec/44_timeout_and_tick.md R196) -/

@[simp] theorem rxIdleReset_cfg (s : State) : (rxIdleReset s).cfg = s.cfg := rfl
@[simp] theorem rxIdleReset_rxPhase (s : State) : (rxIdleReset s).rxPhase = .sync0 := rfl
@[simp] theorem rxIdleReset_rxRrq (s : State) : (rxIdleReset s).rxRrq = false := rfl
@[simp] theorem rxIdleReset_rxIndex (s : State) : (rxIdleReset s).rxIndex = 0 := rfl
@[simp] theorem rxIdleReset_rxExpected (s : State) : (rxIdleReset s).rxExpected = 0 := rfl
@[simp] theorem rxIdleReset_rxPlen (s : State) : (rxIdleReset s).rxPlen = 0 := rfl
@[simp] theorem rxIdleReset_rxCrc (s : State) : (rxIdleReset s).rxCrc = crcInitValue := rfl
@[simp] theorem rxIdleReset_rxFrameId (s : State) : (rxIdleReset s).rxFrameId = s.rxFrameId := rfl
@[simp] theorem rxIdleReset_rxLastId (s : State) : (rxIdleReset s).rxLastId = s.rxLastId := rfl
@[simp] theorem rxIdleReset_rxDeadline (s : State) : (rxIdleReset s).rxDeadline = 0 := rfl
@[simp] theorem rxIdleReset_rxLast (s : State) : (rxIdleReset s).rxLast = s.rxLast := rfl
@[simp] theorem rxIdleReset_rxErrCause (s : State) : (rxIdleReset s).rxErrCause = s.rxErrCause := rfl
@[simp] theorem rxIdleReset_errCount (s : State) : (rxIdleReset s).errCount = s.errCount := rfl
@[simp] theorem rxIdleReset_rxBuf (s : State) : (rxIdleReset s).rxBuf = s.rxBuf := rfl
@[simp] theorem rxIdleReset_txBuf (s : State) : (rxIdleReset s).txBuf = s.txBuf := rfl
@[simp] theorem rxIdleReset_txSrc (s : State) : (rxIdleReset s).txSrc = s.txSrc := rfl
@[simp] theorem rxIdleReset_txCursor (s : State) : (rxIdleReset s).txCursor = s.txCursor := rfl
@[simp] theorem rxIdleReset_txRemaining (s : State) : (rxIdleReset s).txRemaining = s.txRemaining := rfl
@[simp] theorem rxIdleReset_txLastLen (s : State) : (rxIdleReset s).txLastLen = s.txLastLen := rfl
@[simp] theorem rxIdleReset_txSeq (s : State) : (rxIdleReset s).txSeq = s.txSeq := rfl
@[simp] theorem rxIdleReset_crcAcc (s : State) : (rxIdleReset s).crcAcc = s.crcAcc := rfl
@[simp] theorem rxIdleReset_commands (s : State) : (rxIdleReset s).commands = s.commands := rfl
@[simp] theorem rxIdleReset_now (s : State) : (rxIdleReset s).now = s.now := rfl
@[simp] theorem rxIdleReset_status (s : State) : (rxIdleReset s).status = s.status := rfl

/-! ## A sampled byte (spec/42_rx_parser.md R132, R134) -/

@[simp] theorem loadDeadline_cfg (s : State) : (loadDeadline s).cfg = s.cfg := rfl
@[simp] theorem loadDeadline_rxPhase (s : State) : (loadDeadline s).rxPhase = s.rxPhase := rfl
@[simp] theorem loadDeadline_rxRrq (s : State) : (loadDeadline s).rxRrq = s.rxRrq := rfl
@[simp] theorem loadDeadline_rxIndex (s : State) : (loadDeadline s).rxIndex = s.rxIndex := rfl
@[simp] theorem loadDeadline_rxExpected (s : State) : (loadDeadline s).rxExpected = s.rxExpected := rfl
@[simp] theorem loadDeadline_rxPlen (s : State) : (loadDeadline s).rxPlen = s.rxPlen := rfl
@[simp] theorem loadDeadline_rxCrc (s : State) : (loadDeadline s).rxCrc = s.rxCrc := rfl
@[simp] theorem loadDeadline_rxFrameId (s : State) : (loadDeadline s).rxFrameId = s.rxFrameId := rfl
@[simp] theorem loadDeadline_rxLastId (s : State) : (loadDeadline s).rxLastId = s.rxLastId := rfl
@[simp] theorem loadDeadline_rxDeadline (s : State) : (loadDeadline s).rxDeadline = s.cfg.timeoutBudget := rfl
@[simp] theorem loadDeadline_rxLast (s : State) : (loadDeadline s).rxLast = sampleNow s := rfl
@[simp] theorem loadDeadline_rxErrCause (s : State) : (loadDeadline s).rxErrCause = s.rxErrCause := rfl
@[simp] theorem loadDeadline_errCount (s : State) : (loadDeadline s).errCount = s.errCount := rfl
@[simp] theorem loadDeadline_rxBuf (s : State) : (loadDeadline s).rxBuf = s.rxBuf := rfl
@[simp] theorem loadDeadline_txBuf (s : State) : (loadDeadline s).txBuf = s.txBuf := rfl
@[simp] theorem loadDeadline_txSrc (s : State) : (loadDeadline s).txSrc = s.txSrc := rfl
@[simp] theorem loadDeadline_txCursor (s : State) : (loadDeadline s).txCursor = s.txCursor := rfl
@[simp] theorem loadDeadline_txRemaining (s : State) : (loadDeadline s).txRemaining = s.txRemaining := rfl
@[simp] theorem loadDeadline_txLastLen (s : State) : (loadDeadline s).txLastLen = s.txLastLen := rfl
@[simp] theorem loadDeadline_txSeq (s : State) : (loadDeadline s).txSeq = s.txSeq := rfl
@[simp] theorem loadDeadline_crcAcc (s : State) : (loadDeadline s).crcAcc = s.crcAcc := rfl
@[simp] theorem loadDeadline_commands (s : State) : (loadDeadline s).commands = s.commands := rfl
@[simp] theorem loadDeadline_now (s : State) : (loadDeadline s).now = s.now := rfl
@[simp] theorem loadDeadline_status (s : State) : (loadDeadline s).status = s.status := rfl
@[simp] theorem takeByte_cfg (b : Byte) (s : State) : (takeByte b s).cfg = s.cfg := rfl
@[simp] theorem takeByte_rxPhase (b : Byte) (s : State) : (takeByte b s).rxPhase = s.rxPhase := rfl
@[simp] theorem takeByte_rxRrq (b : Byte) (s : State) : (takeByte b s).rxRrq = s.rxRrq := rfl
@[simp] theorem takeByte_rxIndex (b : Byte) (s : State) : (takeByte b s).rxIndex = s.rxIndex + 1 := rfl
@[simp] theorem takeByte_rxExpected (b : Byte) (s : State) : (takeByte b s).rxExpected = s.rxExpected := rfl
@[simp] theorem takeByte_rxPlen (b : Byte) (s : State) : (takeByte b s).rxPlen = s.rxPlen := rfl
@[simp] theorem takeByte_rxCrc (b : Byte) (s : State) : (takeByte b s).rxCrc = crcUpdate s.rxCrc b := rfl
@[simp] theorem takeByte_rxFrameId (b : Byte) (s : State) : (takeByte b s).rxFrameId = s.rxFrameId := rfl
@[simp] theorem takeByte_rxLastId (b : Byte) (s : State) : (takeByte b s).rxLastId = s.rxLastId := rfl
@[simp] theorem takeByte_rxDeadline (b : Byte) (s : State) : (takeByte b s).rxDeadline = s.rxDeadline := rfl
@[simp] theorem takeByte_rxLast (b : Byte) (s : State) : (takeByte b s).rxLast = s.rxLast := rfl
@[simp] theorem takeByte_rxErrCause (b : Byte) (s : State) : (takeByte b s).rxErrCause = s.rxErrCause := rfl
@[simp] theorem takeByte_errCount (b : Byte) (s : State) : (takeByte b s).errCount = s.errCount := rfl
@[simp] theorem takeByte_rxBuf (b : Byte) (s : State) : (takeByte b s).rxBuf = Memory.set s.rxBuf s.rxIndex b := rfl
@[simp] theorem takeByte_txBuf (b : Byte) (s : State) : (takeByte b s).txBuf = s.txBuf := rfl
@[simp] theorem takeByte_txSrc (b : Byte) (s : State) : (takeByte b s).txSrc = s.txSrc := rfl
@[simp] theorem takeByte_txCursor (b : Byte) (s : State) : (takeByte b s).txCursor = s.txCursor := rfl
@[simp] theorem takeByte_txRemaining (b : Byte) (s : State) : (takeByte b s).txRemaining = s.txRemaining := rfl
@[simp] theorem takeByte_txLastLen (b : Byte) (s : State) : (takeByte b s).txLastLen = s.txLastLen := rfl
@[simp] theorem takeByte_txSeq (b : Byte) (s : State) : (takeByte b s).txSeq = s.txSeq := rfl
@[simp] theorem takeByte_crcAcc (b : Byte) (s : State) : (takeByte b s).crcAcc = s.crcAcc := rfl
@[simp] theorem takeByte_commands (b : Byte) (s : State) : (takeByte b s).commands = s.commands := rfl
@[simp] theorem takeByte_now (b : Byte) (s : State) : (takeByte b s).now = s.now := rfl
@[simp] theorem takeByte_status (b : Byte) (s : State) : (takeByte b s).status = s.status := rfl

/-! ## Arming the drainer and counting an error (spec/43_tx.md R176, R177, 44_timeout_and_tick.md R193) -/

@[simp] theorem armDrainer_cfg (src : TxSrc) (n : Len) (s : State) : (armDrainer src n s).cfg = s.cfg := rfl
@[simp] theorem armDrainer_rxPhase (src : TxSrc) (n : Len) (s : State) : (armDrainer src n s).rxPhase = s.rxPhase := rfl
@[simp] theorem armDrainer_rxRrq (src : TxSrc) (n : Len) (s : State) : (armDrainer src n s).rxRrq = s.rxRrq := rfl
@[simp] theorem armDrainer_rxIndex (src : TxSrc) (n : Len) (s : State) : (armDrainer src n s).rxIndex = s.rxIndex := rfl
@[simp] theorem armDrainer_rxExpected (src : TxSrc) (n : Len) (s : State) : (armDrainer src n s).rxExpected = s.rxExpected := rfl
@[simp] theorem armDrainer_rxPlen (src : TxSrc) (n : Len) (s : State) : (armDrainer src n s).rxPlen = s.rxPlen := rfl
@[simp] theorem armDrainer_rxCrc (src : TxSrc) (n : Len) (s : State) : (armDrainer src n s).rxCrc = s.rxCrc := rfl
@[simp] theorem armDrainer_rxFrameId (src : TxSrc) (n : Len) (s : State) : (armDrainer src n s).rxFrameId = s.rxFrameId := rfl
@[simp] theorem armDrainer_rxLastId (src : TxSrc) (n : Len) (s : State) : (armDrainer src n s).rxLastId = s.rxLastId := rfl
@[simp] theorem armDrainer_rxDeadline (src : TxSrc) (n : Len) (s : State) : (armDrainer src n s).rxDeadline = s.rxDeadline := rfl
@[simp] theorem armDrainer_rxLast (src : TxSrc) (n : Len) (s : State) : (armDrainer src n s).rxLast = s.rxLast := rfl
@[simp] theorem armDrainer_rxErrCause (src : TxSrc) (n : Len) (s : State) : (armDrainer src n s).rxErrCause = s.rxErrCause := rfl
@[simp] theorem armDrainer_errCount (src : TxSrc) (n : Len) (s : State) : (armDrainer src n s).errCount = s.errCount := rfl
@[simp] theorem armDrainer_rxBuf (src : TxSrc) (n : Len) (s : State) : (armDrainer src n s).rxBuf = s.rxBuf := rfl
@[simp] theorem armDrainer_txBuf (src : TxSrc) (n : Len) (s : State) : (armDrainer src n s).txBuf = s.txBuf := rfl
@[simp] theorem armDrainer_txSrc (src : TxSrc) (n : Len) (s : State) : (armDrainer src n s).txSrc = src := rfl
@[simp] theorem armDrainer_txCursor (src : TxSrc) (n : Len) (s : State) : (armDrainer src n s).txCursor = 0 := rfl
@[simp] theorem armDrainer_txRemaining (src : TxSrc) (n : Len) (s : State) : (armDrainer src n s).txRemaining = n := rfl
@[simp] theorem armDrainer_txLastLen (src : TxSrc) (n : Len) (s : State) : (armDrainer src n s).txLastLen = s.txLastLen := rfl
@[simp] theorem armDrainer_txSeq (src : TxSrc) (n : Len) (s : State) : (armDrainer src n s).txSeq = s.txSeq := rfl
@[simp] theorem armDrainer_crcAcc (src : TxSrc) (n : Len) (s : State) : (armDrainer src n s).crcAcc = s.crcAcc := rfl
@[simp] theorem armDrainer_commands (src : TxSrc) (n : Len) (s : State) : (armDrainer src n s).commands = s.commands := rfl
@[simp] theorem armDrainer_now (src : TxSrc) (n : Len) (s : State) : (armDrainer src n s).now = s.now := rfl
@[simp] theorem armDrainer_status (src : TxSrc) (n : Len) (s : State) : (armDrainer src n s).status = s.status := rfl
@[simp] theorem countError_cfg (s : State) : (countError s).cfg = s.cfg := rfl
@[simp] theorem countError_rxPhase (s : State) : (countError s).rxPhase = s.rxPhase := rfl
@[simp] theorem countError_rxRrq (s : State) : (countError s).rxRrq = s.rxRrq := rfl
@[simp] theorem countError_rxIndex (s : State) : (countError s).rxIndex = s.rxIndex := rfl
@[simp] theorem countError_rxExpected (s : State) : (countError s).rxExpected = s.rxExpected := rfl
@[simp] theorem countError_rxPlen (s : State) : (countError s).rxPlen = s.rxPlen := rfl
@[simp] theorem countError_rxCrc (s : State) : (countError s).rxCrc = s.rxCrc := rfl
@[simp] theorem countError_rxFrameId (s : State) : (countError s).rxFrameId = s.rxFrameId := rfl
@[simp] theorem countError_rxLastId (s : State) : (countError s).rxLastId = s.rxLastId := rfl
@[simp] theorem countError_rxDeadline (s : State) : (countError s).rxDeadline = s.rxDeadline := rfl
@[simp] theorem countError_rxLast (s : State) : (countError s).rxLast = s.rxLast := rfl
@[simp] theorem countError_rxErrCause (s : State) : (countError s).rxErrCause = s.rxErrCause := rfl
@[simp] theorem countError_errCount (s : State) : (countError s).errCount = (s.errCount + 1) % 2 ^ s.cfg.errBits := rfl
@[simp] theorem countError_rxBuf (s : State) : (countError s).rxBuf = s.rxBuf := rfl
@[simp] theorem countError_txBuf (s : State) : (countError s).txBuf = s.txBuf := rfl
@[simp] theorem countError_txSrc (s : State) : (countError s).txSrc = s.txSrc := rfl
@[simp] theorem countError_txCursor (s : State) : (countError s).txCursor = s.txCursor := rfl
@[simp] theorem countError_txRemaining (s : State) : (countError s).txRemaining = s.txRemaining := rfl
@[simp] theorem countError_txLastLen (s : State) : (countError s).txLastLen = s.txLastLen := rfl
@[simp] theorem countError_txSeq (s : State) : (countError s).txSeq = s.txSeq := rfl
@[simp] theorem countError_crcAcc (s : State) : (countError s).crcAcc = s.crcAcc := rfl
@[simp] theorem countError_commands (s : State) : (countError s).commands = s.commands := rfl
@[simp] theorem countError_now (s : State) : (countError s).now = s.now := rfl
@[simp] theorem countError_status (s : State) : (countError s).status = s.status := rfl

/-! ## Taking a command from the stream (spec/30_encoding.md R92) -/

@[simp] theorem takeCommand_cfg (c : Command) (rest : List Command) (s : State) : (takeCommand c rest s).cfg = s.cfg := rfl
@[simp] theorem takeCommand_rxPhase (c : Command) (rest : List Command) (s : State) : (takeCommand c rest s).rxPhase = s.rxPhase := rfl
@[simp] theorem takeCommand_rxRrq (c : Command) (rest : List Command) (s : State) : (takeCommand c rest s).rxRrq = s.rxRrq := rfl
@[simp] theorem takeCommand_rxIndex (c : Command) (rest : List Command) (s : State) : (takeCommand c rest s).rxIndex = s.rxIndex := rfl
@[simp] theorem takeCommand_rxExpected (c : Command) (rest : List Command) (s : State) : (takeCommand c rest s).rxExpected = s.rxExpected := rfl
@[simp] theorem takeCommand_rxPlen (c : Command) (rest : List Command) (s : State) : (takeCommand c rest s).rxPlen = s.rxPlen := rfl
@[simp] theorem takeCommand_rxCrc (c : Command) (rest : List Command) (s : State) : (takeCommand c rest s).rxCrc = s.rxCrc := rfl
@[simp] theorem takeCommand_rxFrameId (c : Command) (rest : List Command) (s : State) : (takeCommand c rest s).rxFrameId = s.rxFrameId := rfl
@[simp] theorem takeCommand_rxLastId (c : Command) (rest : List Command) (s : State) : (takeCommand c rest s).rxLastId = s.rxLastId := rfl
@[simp] theorem takeCommand_rxDeadline (c : Command) (rest : List Command) (s : State) : (takeCommand c rest s).rxDeadline = s.rxDeadline := rfl
@[simp] theorem takeCommand_rxLast (c : Command) (rest : List Command) (s : State) : (takeCommand c rest s).rxLast = s.rxLast := rfl
@[simp] theorem takeCommand_rxErrCause (c : Command) (rest : List Command) (s : State) : (takeCommand c rest s).rxErrCause = s.rxErrCause := rfl
@[simp] theorem takeCommand_errCount (c : Command) (rest : List Command) (s : State) : (takeCommand c rest s).errCount = s.errCount := rfl
@[simp] theorem takeCommand_rxBuf (c : Command) (rest : List Command) (s : State) : (takeCommand c rest s).rxBuf = s.rxBuf := rfl
@[simp] theorem takeCommand_txBuf (c : Command) (rest : List Command) (s : State) : (takeCommand c rest s).txBuf = s.txBuf := rfl
@[simp] theorem takeCommand_txSrc (c : Command) (rest : List Command) (s : State) : (takeCommand c rest s).txSrc = s.txSrc := rfl
@[simp] theorem takeCommand_txCursor (c : Command) (rest : List Command) (s : State) : (takeCommand c rest s).txCursor = s.txCursor := rfl
@[simp] theorem takeCommand_txRemaining (c : Command) (rest : List Command) (s : State) : (takeCommand c rest s).txRemaining = s.txRemaining := rfl
@[simp] theorem takeCommand_txLastLen (c : Command) (rest : List Command) (s : State) : (takeCommand c rest s).txLastLen = s.txLastLen := rfl
@[simp] theorem takeCommand_txSeq (c : Command) (rest : List Command) (s : State) : (takeCommand c rest s).txSeq = s.txSeq := rfl
@[simp] theorem takeCommand_crcAcc (c : Command) (rest : List Command) (s : State) : (takeCommand c rest s).crcAcc = s.crcAcc := rfl
@[simp] theorem takeCommand_commands (c : Command) (rest : List Command) (s : State) : (takeCommand c rest s).commands = rest := rfl
@[simp] theorem takeCommand_now (c : Command) (rest : List Command) (s : State) : (takeCommand c rest s).now = c.now := rfl
@[simp] theorem takeCommand_status (c : Command) (rest : List Command) (s : State) : (takeCommand c rest s).status = s.status := rfl

/-! ## Updates under a condition (spec/60_exceptions.md R223, 43_tx.md R176, R177) -/

@[simp] theorem enterError_cfg (c : ErrCause) (s : State) : (enterError c s).cfg = s.cfg := by unfold enterError; split <;> rfl
@[simp] theorem enterError_rxRrq (c : ErrCause) (s : State) : (enterError c s).rxRrq = s.rxRrq := by unfold enterError; split <;> rfl
@[simp] theorem enterError_rxIndex (c : ErrCause) (s : State) : (enterError c s).rxIndex = s.rxIndex := by unfold enterError; split <;> rfl
@[simp] theorem enterError_rxExpected (c : ErrCause) (s : State) : (enterError c s).rxExpected = s.rxExpected := by unfold enterError; split <;> rfl
@[simp] theorem enterError_rxPlen (c : ErrCause) (s : State) : (enterError c s).rxPlen = s.rxPlen := by unfold enterError; split <;> rfl
@[simp] theorem enterError_rxCrc (c : ErrCause) (s : State) : (enterError c s).rxCrc = s.rxCrc := by unfold enterError; split <;> rfl
@[simp] theorem enterError_rxFrameId (c : ErrCause) (s : State) : (enterError c s).rxFrameId = s.rxFrameId := by unfold enterError; split <;> rfl
@[simp] theorem enterError_rxLastId (c : ErrCause) (s : State) : (enterError c s).rxLastId = s.rxLastId := by unfold enterError; split <;> rfl
@[simp] theorem enterError_rxDeadline (c : ErrCause) (s : State) : (enterError c s).rxDeadline = s.rxDeadline := by unfold enterError; split <;> rfl
@[simp] theorem enterError_rxLast (c : ErrCause) (s : State) : (enterError c s).rxLast = s.rxLast := by unfold enterError; split <;> rfl
@[simp] theorem enterError_errCount (c : ErrCause) (s : State) : (enterError c s).errCount = s.errCount := by unfold enterError; split <;> rfl
@[simp] theorem enterError_rxBuf (c : ErrCause) (s : State) : (enterError c s).rxBuf = s.rxBuf := by unfold enterError; split <;> rfl
@[simp] theorem enterError_txBuf (c : ErrCause) (s : State) : (enterError c s).txBuf = s.txBuf := by unfold enterError; split <;> rfl
@[simp] theorem enterError_txSrc (c : ErrCause) (s : State) : (enterError c s).txSrc = s.txSrc := by unfold enterError; split <;> rfl
@[simp] theorem enterError_txCursor (c : ErrCause) (s : State) : (enterError c s).txCursor = s.txCursor := by unfold enterError; split <;> rfl
@[simp] theorem enterError_txRemaining (c : ErrCause) (s : State) : (enterError c s).txRemaining = s.txRemaining := by unfold enterError; split <;> rfl
@[simp] theorem enterError_txLastLen (c : ErrCause) (s : State) : (enterError c s).txLastLen = s.txLastLen := by unfold enterError; split <;> rfl
@[simp] theorem enterError_txSeq (c : ErrCause) (s : State) : (enterError c s).txSeq = s.txSeq := by unfold enterError; split <;> rfl
@[simp] theorem enterError_crcAcc (c : ErrCause) (s : State) : (enterError c s).crcAcc = s.crcAcc := by unfold enterError; split <;> rfl
@[simp] theorem enterError_commands (c : ErrCause) (s : State) : (enterError c s).commands = s.commands := by unfold enterError; split <;> rfl
@[simp] theorem enterError_now (c : ErrCause) (s : State) : (enterError c s).now = s.now := by unfold enterError; split <;> rfl
@[simp] theorem enterError_status (c : ErrCause) (s : State) : (enterError c s).status = s.status := by unfold enterError; split <;> rfl
@[simp] theorem enterError_rxPhase (c : ErrCause) (s : State) : (enterError c s).rxPhase = .error := by
  unfold enterError; split <;> simp_all
theorem enterError_rxErrCause (c : ErrCause) (s : State) :
    (enterError c s).rxErrCause = if s.rxPhase = .error then s.rxErrCause else c := by
  unfold enterError; split <;> rfl
@[simp] theorem armCtrl_cfg (s : State) : (armCtrl s).cfg = s.cfg := by unfold armCtrl; split <;> rfl
@[simp] theorem armCtrl_rxPhase (s : State) : (armCtrl s).rxPhase = s.rxPhase := by unfold armCtrl; split <;> rfl
@[simp] theorem armCtrl_rxRrq (s : State) : (armCtrl s).rxRrq = s.rxRrq := by unfold armCtrl; split <;> rfl
@[simp] theorem armCtrl_rxIndex (s : State) : (armCtrl s).rxIndex = s.rxIndex := by unfold armCtrl; split <;> rfl
@[simp] theorem armCtrl_rxExpected (s : State) : (armCtrl s).rxExpected = s.rxExpected := by unfold armCtrl; split <;> rfl
@[simp] theorem armCtrl_rxPlen (s : State) : (armCtrl s).rxPlen = s.rxPlen := by unfold armCtrl; split <;> rfl
@[simp] theorem armCtrl_rxCrc (s : State) : (armCtrl s).rxCrc = s.rxCrc := by unfold armCtrl; split <;> rfl
@[simp] theorem armCtrl_rxFrameId (s : State) : (armCtrl s).rxFrameId = s.rxFrameId := by unfold armCtrl; split <;> rfl
@[simp] theorem armCtrl_rxLastId (s : State) : (armCtrl s).rxLastId = s.rxLastId := by unfold armCtrl; split <;> rfl
@[simp] theorem armCtrl_rxDeadline (s : State) : (armCtrl s).rxDeadline = s.rxDeadline := by unfold armCtrl; split <;> rfl
@[simp] theorem armCtrl_rxLast (s : State) : (armCtrl s).rxLast = s.rxLast := by unfold armCtrl; split <;> rfl
@[simp] theorem armCtrl_rxErrCause (s : State) : (armCtrl s).rxErrCause = s.rxErrCause := by unfold armCtrl; split <;> rfl
@[simp] theorem armCtrl_errCount (s : State) : (armCtrl s).errCount = s.errCount := by unfold armCtrl; split <;> rfl
@[simp] theorem armCtrl_rxBuf (s : State) : (armCtrl s).rxBuf = s.rxBuf := by unfold armCtrl; split <;> rfl
@[simp] theorem armCtrl_txBuf (s : State) : (armCtrl s).txBuf = s.txBuf := by unfold armCtrl; split <;> rfl
@[simp] theorem armCtrl_txLastLen (s : State) : (armCtrl s).txLastLen = s.txLastLen := by unfold armCtrl; split <;> rfl
@[simp] theorem armCtrl_txSeq (s : State) : (armCtrl s).txSeq = s.txSeq := by unfold armCtrl; split <;> rfl
@[simp] theorem armCtrl_crcAcc (s : State) : (armCtrl s).crcAcc = s.crcAcc := by unfold armCtrl; split <;> rfl
@[simp] theorem armCtrl_commands (s : State) : (armCtrl s).commands = s.commands := by unfold armCtrl; split <;> rfl
@[simp] theorem armCtrl_now (s : State) : (armCtrl s).now = s.now := by unfold armCtrl; split <;> rfl
@[simp] theorem armCtrl_status (s : State) : (armCtrl s).status = s.status := by unfold armCtrl; split <;> rfl
@[simp] theorem armResend_cfg (s : State) : (armResend s).cfg = s.cfg := by unfold armResend; split <;> rfl
@[simp] theorem armResend_rxPhase (s : State) : (armResend s).rxPhase = s.rxPhase := by unfold armResend; split <;> rfl
@[simp] theorem armResend_rxRrq (s : State) : (armResend s).rxRrq = s.rxRrq := by unfold armResend; split <;> rfl
@[simp] theorem armResend_rxIndex (s : State) : (armResend s).rxIndex = s.rxIndex := by unfold armResend; split <;> rfl
@[simp] theorem armResend_rxExpected (s : State) : (armResend s).rxExpected = s.rxExpected := by unfold armResend; split <;> rfl
@[simp] theorem armResend_rxPlen (s : State) : (armResend s).rxPlen = s.rxPlen := by unfold armResend; split <;> rfl
@[simp] theorem armResend_rxCrc (s : State) : (armResend s).rxCrc = s.rxCrc := by unfold armResend; split <;> rfl
@[simp] theorem armResend_rxFrameId (s : State) : (armResend s).rxFrameId = s.rxFrameId := by unfold armResend; split <;> rfl
@[simp] theorem armResend_rxLastId (s : State) : (armResend s).rxLastId = s.rxLastId := by unfold armResend; split <;> rfl
@[simp] theorem armResend_rxDeadline (s : State) : (armResend s).rxDeadline = s.rxDeadline := by unfold armResend; split <;> rfl
@[simp] theorem armResend_rxLast (s : State) : (armResend s).rxLast = s.rxLast := by unfold armResend; split <;> rfl
@[simp] theorem armResend_rxErrCause (s : State) : (armResend s).rxErrCause = s.rxErrCause := by unfold armResend; split <;> rfl
@[simp] theorem armResend_errCount (s : State) : (armResend s).errCount = s.errCount := by unfold armResend; split <;> rfl
@[simp] theorem armResend_rxBuf (s : State) : (armResend s).rxBuf = s.rxBuf := by unfold armResend; split <;> rfl
@[simp] theorem armResend_txBuf (s : State) : (armResend s).txBuf = s.txBuf := by unfold armResend; split <;> rfl
@[simp] theorem armResend_txLastLen (s : State) : (armResend s).txLastLen = s.txLastLen := by unfold armResend; split <;> rfl
@[simp] theorem armResend_txSeq (s : State) : (armResend s).txSeq = s.txSeq := by unfold armResend; split <;> rfl
@[simp] theorem armResend_crcAcc (s : State) : (armResend s).crcAcc = s.crcAcc := by unfold armResend; split <;> rfl
@[simp] theorem armResend_commands (s : State) : (armResend s).commands = s.commands := by unfold armResend; split <;> rfl
@[simp] theorem armResend_now (s : State) : (armResend s).now = s.now := by unfold armResend; split <;> rfl
@[simp] theorem armResend_status (s : State) : (armResend s).status = s.status := by unfold armResend; split <;> rfl

end Sys2Proof.Machine
end

