-- ==== Sys2Proof/Laws/Ops.lean ====
section
/-!
SUPPORT. What each shared operation can answer: one lemma an operation, cited instead of unfolding it.
-/

namespace Sys2Proof.Machine

theorem finish_next {st : Status} {s t : State} : finish st s = .next t ↔ t = { s with status := st } := by
  simp [finish, eq_comm]

/-- With a legal configuration a command answers what its rule says. -/
theorem configured_legal {s : State} (h : s.cfg.legal = true) (r : Result) : configured s r = r := by
  simp [configured, h]

/-- With any other configuration it is refused. -/
theorem configured_illegal {s : State} (h : s.cfg.legal = false) (r : Result) :
    configured s r = .refused .illegalConfiguration := by
  simp [configured, h]

theorem configured_next {s t : State} {r : Result} :
    configured s r = .next t ↔ s.cfg.legal = true ∧ r = .next t := by
  cases h : s.cfg.legal <;> simp [configured, h]

theorem configured_fault {s : State} {r : Result} {f : Fault} :
    configured s r = .fault f ↔ s.cfg.legal = true ∧ r = .fault f := by
  cases h : s.cfg.legal <;> simp [configured, h]

theorem withinBuffer_of_le {s : State} {sp : Space} {n : Nat} (h : n ≤ capacity s.cfg sp) (r : Result) :
    withinBuffer s sp n r = r := by
  simp [withinBuffer, h]

theorem withinBuffer_next {s t : State} {sp : Space} {n : Nat} {r : Result} :
    withinBuffer s sp n r = .next t ↔ n ≤ capacity s.cfg sp ∧ r = .next t := by
  by_cases h : n ≤ capacity s.cfg sp <;> simp [withinBuffer, h]

theorem enterError_of_error {s : State} (h : s.rxPhase = .error) (c : ErrCause) : enterError c s = s := by
  simp [enterError, h]

theorem enterError_of_ne {s : State} (h : s.rxPhase ≠ .error) (c : ErrCause) :
    enterError c s = { s with rxPhase := .error, rxErrCause := c } := by
  simp [enterError, h]

theorem armCtrl_armed {s : State} (h : s.cfg.resendEn = true) (h' : s.txRemaining = 0) :
    armCtrl s = armDrainer .ctrl 2 s := by
  simp [armCtrl, h, h']

theorem armCtrl_dropped {s : State} (h : s.cfg.resendEn = false ∨ s.txRemaining ≠ 0) : armCtrl s = s := by
  refine if_neg fun hc => ?_
  rcases h with h | h
  · simp [h] at hc
  · exact h hc.2

theorem armResend_armed {s : State} (h : s.txLastLen ≠ 0) (h' : s.txRemaining = 0) :
    armResend s = armDrainer .frame s.txLastLen s := by
  exact if_pos ⟨h, h'⟩

theorem armResend_dropped {s : State} (h : s.txLastLen = 0 ∨ s.txRemaining ≠ 0) : armResend s = s := by
  refine if_neg fun hc => ?_
  rcases h with h | h
  · exact hc.1 h
  · exact h hc.2

theorem inProgress_iff {s : State} :
    inProgress s = true ↔ 0 < s.rxIndex ∧ s.rxPhase ≠ .error ∧ s.rxPhase ≠ .rrq ∧ s.rxPhase ≠ .done := by
  simp [inProgress]

/-- What a timeout does, by what it finds (spec/44_timeout_and_tick.md R193 to R195): a partial frame or an error, a
complete resend-request, or nothing. -/
theorem timeoutFire_cases (s : State) :
    (inProgress s = true ∧ timeoutFire s = rxIdleReset (armCtrl (countError (enterError .timeout s))))
      ∨ (s.rxPhase = .error ∧ timeoutFire s = rxIdleReset (armCtrl (countError s)))
      ∨ (s.rxPhase = .rrq ∧ timeoutFire s = rxIdleReset (armResend s))
      ∨ (inProgress s = false ∧ s.rxPhase ≠ .error ∧ s.rxPhase ≠ .rrq ∧ timeoutFire s = rxIdleReset s) := by
  by_cases h : inProgress s = true
  · exact .inl ⟨h, by simp [timeoutFire, abandonPartial, resolvePhase, h]⟩
  · have h' : inProgress s = false := by simpa using h
    by_cases e : s.rxPhase = .error
    · exact .inr (.inl ⟨e, by simp [timeoutFire, abandonPartial, resolvePhase, h', e]⟩)
    · by_cases q : s.rxPhase = .rrq
      · exact .inr (.inr (.inl ⟨q, by simp [timeoutFire, abandonPartial, resolvePhase, h', q]⟩))
      · exact .inr (.inr (.inr ⟨h', e, q, by simp [timeoutFire, abandonPartial, resolvePhase, h', e, q]⟩))

theorem sendable_iff {c : Config} {n : Len} :
    sendable c n = true ↔ n ≠ 0 ∧ n.toNat ≤ 256 ∧ n.toNat + 6 ≤ c.txCap := by
  exact decide_eq_true_iff

theorem legal_iff {c : Config} :
    c.legal = true ↔
      7 ≤ c.rxCap ∧ 7 ≤ c.txCap ∧ 1 ≤ c.tickBits ∧ 1 ≤ c.timeoutBudget ∧ c.timeoutBudget ≤ 2 ^ c.tickBits - 1
        ∧ 1 ≤ c.errBits := by
  simp [Config.legal, and_assoc]

theorem andThen_next {α β : Type} {r : Host.Outcome α Fault Refusal} {k : α → Host.Outcome β Fault Refusal} {b : β} :
    andThen r k = .next b ↔ ∃ a, r = .next a ∧ k a = .next b := by
  cases r <;> simp [andThen]

@[simp] theorem andThen_of_next {α β : Type} (a : α) (k : α → Host.Outcome β Fault Refusal) :
    andThen (.next a) k = k a := rfl

/-- A sequence of commands is its first part, then its second. -/
theorem runAll_append {l₁ l₂ : List (Instr × Option Nat)} {s t : State} (h : runAll l₁ s = .next t) :
    runAll (l₁ ++ l₂) s = runAll l₂ t := by
  induction l₁ generalizing s with
  | nil => cases h; rfl
  | cons x xs ih =>
    obtain ⟨u, h1, h2⟩ := andThen_next.1 h
    simp only [List.cons_append, runAll, h1, andThen_of_next]
    exact ih h2

end Sys2Proof.Machine
end

