-- ==== Sys2Proof/Laws/Exec.lean ====
section
/-!
SUPPORT. What each command and a step can do: one inversion lemma a command ("if it answers next t, then …"), from which
the invariants are derived, and the fields that the phase function never writes.
-/

namespace Sys2Proof.Machine

/-! ## The commands -/

theorem execCrcInit_next {s t : State} (h : execCrcInit s = .next t) :
    s.cfg.legal = true ∧ t = { s with crcAcc := crcInitValue, status := .ok } := by
  obtain ⟨hc, h⟩ := configured_next.1 h
  exact ⟨hc, finish_next.1 h⟩

theorem execCrcUpdate_next {b : Byte} {s t : State} (h : execCrcUpdate b s = .next t) :
    s.cfg.legal = true ∧ t = { s with crcAcc := crcUpdate s.crcAcc b, status := .ok } := by
  obtain ⟨hc, h⟩ := configured_next.1 h
  exact ⟨hc, finish_next.1 h⟩

theorem execRxByte_next {b : Byte} {s t : State} (h : execRxByte b s = .next t) :
    s.cfg.legal = true
      ∧ ((s.rxPhase = .done ∧ t = { s with status := .busy })
        ∨ (s.rxPhase ≠ .done ∧ s.cfg.rxCap ≤ s.rxIndex
          ∧ t = { enterError .bufferOverrun (loadDeadline s) with status := .ok })
        ∨ (s.rxPhase ≠ .done ∧ s.rxIndex < s.cfg.rxCap
          ∧ t = { rxStep b s.rxIndex (takeByte b (loadDeadline s)) with status := .ok })) := by
  obtain ⟨hc, h⟩ := configured_next.1 h
  refine ⟨hc, ?_⟩
  split at h
  · next hd => exact .inl ⟨hd, finish_next.1 h⟩
  · next hd =>
    split at h
    · next ho => exact .inr (.inl ⟨hd, ho, finish_next.1 h⟩)
    · next ho => exact .inr (.inr ⟨hd, by omega, finish_next.1 (withinBuffer_next.1 h).2⟩)

theorem execRxIdle_next {s t : State} (h : execRxIdle s = .next t) :
    s.cfg.legal = true
      ∧ ((s.rxPhase = .done ∧ t = { s with status := .busy })
        ∨ (s.rxPhase ≠ .done ∧ s.rxDeadline ≤ elapsedTicks s.cfg.tickBits s.rxLast (sampleNow s)
          ∧ t = { timeoutFire { s with rxLast := sampleNow s } with status := .ok })
        ∨ (s.rxPhase ≠ .done ∧ elapsedTicks s.cfg.tickBits s.rxLast (sampleNow s) < s.rxDeadline
          ∧ t = { s with
                  rxLast := sampleNow s
                  rxDeadline := s.rxDeadline - elapsedTicks s.cfg.tickBits s.rxLast (sampleNow s)
                  status := .ok })) := by
  obtain ⟨hc, h⟩ := configured_next.1 h
  refine ⟨hc, ?_⟩
  split at h
  · next hd => exact .inl ⟨hd, finish_next.1 h⟩
  · next hd =>
    dsimp only at h
    split at h
    · next ho => exact .inr (.inl ⟨hd, ho, finish_next.1 h⟩)
    · next ho => exact .inr (.inr ⟨hd, by omega, finish_next.1 h⟩)

theorem execRxRelease_next {s t : State} (h : execRxRelease s = .next t) :
    s.cfg.legal = true
      ∧ ((s.rxPhase = .done ∧ t = { rxIdleReset s with status := .ok })
        ∨ (s.rxPhase ≠ .done ∧ t = { s with status := .unavailable })) := by
  obtain ⟨hc, h⟩ := configured_next.1 h
  refine ⟨hc, ?_⟩
  split at h
  · next hd => exact .inl ⟨hd, finish_next.1 h⟩
  · next hd => exact .inr ⟨hd, finish_next.1 h⟩

theorem execTxSlotWrite_next {i : Len} {b : Byte} {s t : State} (h : execTxSlotWrite i b s = .next t) :
    s.cfg.legal = true
      ∧ (((s.txRemaining ≠ 0 ∨ slotSize s.cfg ≤ i.toNat) ∧ t = { s with status := .unavailable })
        ∨ (s.txRemaining = 0 ∧ i.toNat < slotSize s.cfg ∧ slotAddress i < s.cfg.txCap
          ∧ t = { s with txBuf := Memory.set s.txBuf (slotAddress i) b, status := .ok })) := by
  obtain ⟨hc, h⟩ := configured_next.1 h
  refine ⟨hc, ?_⟩
  split at h
  · next hd => exact .inl ⟨hd, finish_next.1 h⟩
  · next hd =>
    rw [not_or, not_not, not_le] at hd
    obtain ⟨hw, h⟩ := withinBuffer_next.1 h
    exact .inr ⟨hd.1, hd.2, hw, finish_next.1 h⟩

theorem execTxSend_next {n : Len} {s t : State} (h : execTxSend n s = .next t) :
    s.cfg.legal = true
      ∧ (((s.txRemaining ≠ 0 ∨ sendable s.cfg n = false) ∧ t = { s with status := .busy })
        ∨ (s.txRemaining = 0 ∧ sendable s.cfg n = true
          ∧ t = { armDrainer .frame (n + 6)
                    { s with
                      txBuf := buildFrame (frameIdByte s) n.toNat s.txBuf
                      txSeq := nextSeq s
                      txLastLen := retainedLength n s } with status := .ok })) := by
  obtain ⟨hc, h⟩ := configured_next.1 h
  refine ⟨hc, ?_⟩
  split at h
  · next hd => exact .inl ⟨hd, finish_next.1 h⟩
  · next hd =>
    rw [not_or, not_not, Bool.not_eq_false] at hd
    exact .inr ⟨hd.1, hd.2, finish_next.1 (withinBuffer_next.1 h).2⟩

theorem execTxAccept_next {s t : State} (h : execTxAccept s = .next t) :
    s.cfg.legal = true
      ∧ ((s.txRemaining = 0 ∧ t = { s with status := .unavailable })
        ∨ (s.txRemaining ≠ 0 ∧ s.txCursor ≠ 511
          ∧ t = { s with txCursor := s.txCursor + 1, txRemaining := s.txRemaining - 1, status := .ok })) := by
  obtain ⟨hc, h⟩ := configured_next.1 h
  refine ⟨hc, ?_⟩
  split at h
  · next hd => exact .inl ⟨hd, finish_next.1 h⟩
  · next hd =>
    split at h
    · cases h
    · next ho => exact .inr ⟨hd, ho, finish_next.1 h⟩

/-! ## When a command completes -/

/-- RX_BYTE with room in the buffer. -/
theorem execRxByte_stored {s : State} (b : Byte) (hl : s.cfg.legal = true) (hd : s.rxPhase ≠ .done)
    (hc : s.rxIndex < s.cfg.rxCap) :
    execRxByte b s = .next { rxStep b s.rxIndex (takeByte b (loadDeadline s)) with status := .ok } := by
  rw [execRxByte, configured_legal hl, if_neg hd, if_neg (by omega),
    withinBuffer_of_le (by simpa [capacity] using hc)]
  rfl

/-- RX_BYTE with the buffer full. -/
theorem execRxByte_dropped {s : State} (b : Byte) (hl : s.cfg.legal = true) (hd : s.rxPhase ≠ .done)
    (hc : s.cfg.rxCap ≤ s.rxIndex) :
    execRxByte b s = .next { enterError .bufferOverrun (loadDeadline s) with status := .ok } := by
  rw [execRxByte, configured_legal hl, if_neg hd, if_pos hc]
  rfl

/-- RX_IDLE that fires the timeout. -/
theorem execRxIdle_fires {s : State} (hl : s.cfg.legal = true) (hd : s.rxPhase ≠ .done)
    (h : s.rxDeadline ≤ elapsedTicks s.cfg.tickBits s.rxLast (sampleNow s)) :
    execRxIdle s = .next { timeoutFire { s with rxLast := sampleNow s } with status := .ok } := by
  rw [execRxIdle, configured_legal hl, if_neg hd]
  dsimp only
  rw [if_pos h]
  rfl

/-- TX_ACCEPT with a byte on offer. -/
theorem execTxAccept_taken {s : State} (hl : s.cfg.legal = true) (h : s.txRemaining ≠ 0) (hc : s.txCursor ≠ 511) :
    execTxAccept s
      = .next { s with txCursor := s.txCursor + 1, txRemaining := s.txRemaining - 1, status := .ok } := by
  rw [execTxAccept, configured_legal hl, if_neg h, if_neg hc]
  rfl

/-! ## A step -/

/-- Everything a step can do: wait, refuse an illegal word, or run the decoded command. -/
theorem step_next {s t : State} (h : step s = .next t) :
    s.cfg.legal = true
      ∧ ((s.commands = [] ∧ t = s)
        ∨ ∃ c rest, s.commands = c :: rest
          ∧ ((∃ e, decode c.word = .error e ∧ t = { takeCommand c rest s with status := .illegal })
            ∨ ∃ i, decode c.word = .ok i ∧ exec i (takeCommand c rest s) = .next t)) := by
  obtain ⟨hc, h⟩ := configured_next.1 h
  refine ⟨hc, ?_⟩
  split at h
  · next hn => exact .inl ⟨hn, by simpa [eq_comm] using h⟩
  · next c rest hn =>
    refine .inr ⟨c, rest, hn, ?_⟩
    unfold runWord at h
    split at h
    · next i hi => exact .inr ⟨i, hi, h⟩
    · next e he => exact .inl ⟨e, he, finish_next.1 h⟩

/-- What the host's stream does not touch, and every command keeps, every step keeps. -/
theorem step_preserves {P : State → Prop}
    (stream : ∀ s cs n st, P s → P { s with commands := cs, now := n, status := st })
    (command : ∀ i s t, P s → exec i s = .next t → P t) {s t : State} (hs : P s) (h : step s = .next t) : P t := by
  obtain ⟨-, ⟨-, rfl⟩ | ⟨c, rest, -, ⟨e, -, rfl⟩ | ⟨i, -, h⟩⟩⟩ := step_next h
  · exact hs
  · exact stream s rest c.now .illegal hs
  · exact command i _ t (stream s rest c.now s.status hs) h

/-! ## What the phase function and the timeout write -/

theorem stepPayload_eq (i : Nat) (s : State) :
    stepPayload i s = { s with rxPhase := if i = 3 + s.rxPlen.toNat then .crclo else s.rxPhase } := by
  unfold stepPayload
  split <;> rfl

/-- What a timeout leaves of the receive side, and what it never writes. -/
theorem timeoutFire_keeps (s : State) :
    (timeoutFire s).cfg = s.cfg ∧ (timeoutFire s).rxBuf = s.rxBuf ∧ (timeoutFire s).txBuf = s.txBuf
      ∧ (timeoutFire s).rxLast = s.rxLast ∧ (timeoutFire s).rxFrameId = s.rxFrameId
      ∧ (timeoutFire s).rxLastId = s.rxLastId ∧ (timeoutFire s).txSeq = s.txSeq
      ∧ (timeoutFire s).txLastLen = s.txLastLen ∧ (timeoutFire s).crcAcc = s.crcAcc
      ∧ (timeoutFire s).rxPhase = .sync0 ∧ (timeoutFire s).rxIndex = 0 ∧ (timeoutFire s).rxDeadline = 0
      ∧ (timeoutFire s).rxCrc = crcInitValue := by
  rcases timeoutFire_cases s with ⟨-, e⟩ | ⟨-, e⟩ | ⟨-, e⟩ | ⟨-, -, -, e⟩ <;> simp [e]

/-- The registers outside the receive parser, the buffers, the byte count and the deadline are not the phase
function's. -/
theorem rxStep_keeps (b : Byte) (i : Nat) (s : State) :
    (rxStep b i s).cfg = s.cfg ∧ (rxStep b i s).rxIndex = s.rxIndex ∧ (rxStep b i s).rxCrc = s.rxCrc
      ∧ (rxStep b i s).rxDeadline = s.rxDeadline ∧ (rxStep b i s).rxLast = s.rxLast
      ∧ (rxStep b i s).errCount = s.errCount ∧ (rxStep b i s).rxBuf = s.rxBuf ∧ (rxStep b i s).txBuf = s.txBuf
      ∧ (rxStep b i s).txSrc = s.txSrc ∧ (rxStep b i s).txCursor = s.txCursor
      ∧ (rxStep b i s).txRemaining = s.txRemaining ∧ (rxStep b i s).txLastLen = s.txLastLen
      ∧ (rxStep b i s).txSeq = s.txSeq ∧ (rxStep b i s).crcAcc = s.crcAcc
      ∧ (rxStep b i s).commands = s.commands ∧ (rxStep b i s).now = s.now := by
  unfold rxStep
  split <;> (try unfold stepSync0) <;> (try unfold stepSync1) <;> (try unfold stepId) <;> (try unfold stepLen) <;>
    (try unfold stepPayload) <;> (try unfold stepCrcHi) <;> (repeat' split) <;> simp

end Sys2Proof.Machine
end

