-- ==== Sys2Proof/Laws/PerInstr.lean ====
section
/-!
SUPPORT. What is said of every instruction as syntax, one lemma for each constructor.
-/

namespace Sys2Proof.Laws.OpcodeRow

/-- The instruction's word matches its own row of the opcode map (spec/30_encoding.md R89). -/
def Statement (i : Instr) : Prop :=
  ∃ r ∈ opcodeRows, r.mnemonic = i.mnemonic ∧ encode i &&& r.mask = r.pattern

/-- The bits of a word under a mask. -/
theorem wordOf_and {op : BitVec 4} {arg : Len} {data : Byte} {mask pattern : Word}
    (h : ∀ k, k < 32 → ((if k < 8 then data.getLsbD k else if k < 16 then false else if k < 25 then arg.getLsbD (k - 16)
      else if k < 28 then false else op.getLsbD (k - 28)) && mask.getLsbD k) = pattern.getLsbD k) :
    wordOf op arg data &&& mask = pattern := by
  apply BitVec.eq_of_getLsbD_eq
  intro k hk
  rw [BitVec.getLsbD_and, getLsbD_wordOf]
  exact h k hk

theorem crcInit : Statement .crcInit :=
  ⟨⟨"CRC_INIT", 0x10000000, 0xFFFFFFFF⟩, by simp [opcodeRows], rfl, by decide⟩

theorem crcUpdate (b : Byte) : Statement (.crcUpdate b) :=
  ⟨⟨"CRC_UPDATE", 0x20000000, 0xFFFFFF00⟩, by simp [opcodeRows], rfl,
    wordOf_and fun k hk => by interval_cases k <;> simp⟩

theorem rxByte (b : Byte) : Statement (.rxByte b) :=
  ⟨⟨"RX_BYTE", 0x30000000, 0xFFFFFF00⟩, by simp [opcodeRows], rfl,
    wordOf_and fun k hk => by interval_cases k <;> simp⟩

theorem rxIdle : Statement .rxIdle :=
  ⟨⟨"RX_IDLE", 0x40000000, 0xFFFFFFFF⟩, by simp [opcodeRows], rfl, by decide⟩

theorem rxRelease : Statement .rxRelease :=
  ⟨⟨"RX_RELEASE", 0x50000000, 0xFFFFFFFF⟩, by simp [opcodeRows], rfl, by decide⟩

theorem txSlotWrite (k : Len) (b : Byte) : Statement (.txSlotWrite k b) :=
  ⟨⟨"TX_SLOT_WRITE", 0x60000000, 0xFE00FF00⟩, by simp [opcodeRows], rfl,
    wordOf_and fun j hj => by interval_cases j <;> simp⟩

theorem txSend (n : Len) : Statement (.txSend n) :=
  ⟨⟨"TX_SEND", 0x70000000, 0xFE00FFFF⟩, by simp [opcodeRows], rfl,
    wordOf_and fun j hj => by interval_cases j <;> simp⟩

theorem txAccept : Statement .txAccept :=
  ⟨⟨"TX_ACCEPT", 0x80000000, 0xFFFFFFFF⟩, by simp [opcodeRows], rfl, by decide⟩

end Sys2Proof.Laws.OpcodeRow
end

