-- ==== Sys2Proof/Machine/Assembler.lean ====
section
/-!
DEFINITION. The assembler's line syntax (spec/30_encoding.md R96): one command a line, operands separated by commas,
decimal or `0x` hexadecimal numbers, the timer annotation `@ t` of RX_BYTE and RX_IDLE, comments from `;` on (log 18).
-/

namespace Sys2Proof.Machine

/-- The tokens of a line. -/
inductive Token where
  | word (cs : List Char)
  | comma
  | annotation
  deriving DecidableEq, Repr

/-- A finished word, if it is not empty. The characters were collected last first. -/
def closeWord (acc : List Char) (rest : List Token) : List Token :=
  if acc = [] then rest else .word acc.reverse :: rest

/-- The tokens of a line up to its comment; `acc` is the word being collected. -/
def tokens (acc : List Char) : List Char → List Token
  | [] => closeWord acc []
  | c :: cs =>
    if c = ';' then closeWord acc []
    else if c = ' ' ∨ c = '\t' ∨ c = '\r' then closeWord acc (tokens [] cs)
    else if c = ',' then closeWord acc (.comma :: tokens [] cs)
    else if c = '@' then closeWord acc (.annotation :: tokens [] cs)
    else tokens (c :: acc) cs

/-- The value of one digit in a base up to 16. -/
def digitValue (base : Nat) (c : Char) : Option Nat :=
  let v :=
    if '0' ≤ c ∧ c ≤ '9' then c.toNat - '0'.toNat
    else if 'a' ≤ c ∧ c ≤ 'f' then c.toNat - 'a'.toNat + 10
    else if 'A' ≤ c ∧ c ≤ 'F' then c.toNat - 'A'.toNat + 10
    else base
  if v < base then some v else none

/-- The value of a sequence of digits, the first the most significant. -/
def digitsValue (base : Nat) : Nat → List Char → Option Nat
  | n, [] => some n
  | n, c :: cs => (digitValue base c).bind fun v => digitsValue base (n * base + v) cs

/-- "decimal or `0x` hexadecimal" (R96), at least one digit. -/
def parseNumber : List Char → Option Nat
  | '0' :: 'x' :: c :: cs => digitsValue 16 0 (c :: cs)
  | c :: cs => digitsValue 10 0 (c :: cs)
  | [] => none

/-- The operands and the timer annotation after a mnemonic. -/
def parseOperands : List Token → Option (List Nat × Option Nat)
  | [] => some ([], none)
  | [.annotation, .word t] => (parseNumber t).map fun v => ([], some v)
  | [.word w] => (parseNumber w).map fun n => ([n], none)
  | [.word w, .annotation, .word t] =>
    (parseNumber w).bind fun n => (parseNumber t).map fun v => ([n], some v)
  | .word w :: .comma :: .word w' :: rest =>
    (parseNumber w).bind fun n => (parseOperands (.word w' :: rest)).map fun p => (n :: p.1, p.2)
  | _ => none

/-- An operand that fits `DATA`. -/
def byteOperand (n : Nat) : Option Byte := if n < 256 then some (BitVec.ofNat 8 n) else none

/-- An operand that fits `ARG`. -/
def lenOperand (n : Nat) : Option Len := if n < 512 then some (BitVec.ofNat 9 n) else none

/-- The eight forms of R96. -/
def assembleForm (m : List Char) (ops : List Nat) (t : Option Nat) : Option (Instr × Option Nat) :=
  match ops, t with
  | [], none =>
    if m = "CRC_INIT".toList then some (.crcInit, none)
    else if m = "RX_IDLE".toList then some (.rxIdle, none)
    else if m = "RX_RELEASE".toList then some (.rxRelease, none)
    else if m = "TX_ACCEPT".toList then some (.txAccept, none)
    else none
  | [], some v => if m = "RX_IDLE".toList then some (.rxIdle, some v) else none
  | [n], none =>
    if m = "CRC_UPDATE".toList then (byteOperand n).map fun b => (.crcUpdate b, none)
    else if m = "RX_BYTE".toList then (byteOperand n).map fun b => (.rxByte b, none)
    else if m = "TX_SEND".toList then (lenOperand n).map fun k => (.txSend k, none)
    else none
  | [n], some v => if m = "RX_BYTE".toList then (byteOperand n).map fun b => (.rxByte b, some v) else none
  | [i, n], none =>
    if m = "TX_SLOT_WRITE".toList then
      (lenOperand i).bind fun k => (byteOperand n).map fun b => (.txSlotWrite k b, none)
    else none
  | _, _ => none

/-- A line: `none` if it is malformed, `some none` if it holds no command. -/
def assembleLine (line : String) : Option (Option (Instr × Option Nat)) :=
  match tokens [] line.toList with
  | [] => some none
  | .word m :: rest => (parseOperands rest).bind fun p => (assembleForm m p.1 p.2).map some
  | _ => none

end Sys2Proof.Machine
end

