-- ==== Sys2Proof/Tests/Slice0.lean ====
section
/-!
SUPPORT. The model's own tests. Every expected value is written from spec/ (the section or vector is named); none is the
model's answer pasted back. The last part has a witness for every obligation with hypotheses.
-/

namespace Sys2Proof.Tests

open Sys2Proof.Machine

/-! ## Helpers -/

/-- The state after, if there is one, seen through `f`. -/
def after {α : Type} (r : Result) (f : State → α) : Option α :=
  match r with
  | .next t => some (f t)
  | _ => none

/-- Reset under configuration C0 of 95_test_vectors.md section 0. -/
def base : State := State.resetFor Config.c0

/-- C1: `ID_EN` = 1. -/
def c1 : Config := { Config.c0 with idEn := true }

/-- C2: both buffers of 16 bytes. -/
def c2 : Config := { Config.c0 with rxCap := 16, txCap := 16 }

/-- C3: `RESEND_EN` = 0. -/
def c3 : Config := { Config.c0 with resendEn := false }

/-- A receiver in phase `p` with `k` bytes stored, its deadline full. -/
def receiving (p : Phase) (k : Nat) : State := { base with rxPhase := p, rxIndex := k, rxDeadline := 100 }

/-- A receiver in the phases with a length, for the frame of 95_test_vectors.md S1 (payload of two bytes). -/
def inFrame (p : Phase) (k : Nat) : State := { receiving p k with rxPlen := 2, rxExpected := 8 }

/-- The host issues word `w` at time `t`. -/
def issuing (w : Word) (t : Nat) (s : State) : State := { s with commands := [⟨w, t⟩], now := t }

/-! ## WellFormed: each check refuses an ill-formed configuration (70_reset_and_hazards.md R250, R251) -/

theorem test_legal_c0 : Config.c0.legal = true := by decide
theorem test_legal_smallest :
    ({ Config.c0 with rxCap := 7, txCap := 7, tickBits := 1, timeoutBudget := 1, errBits := 1 } : Config).legal = true := by
  decide
theorem test_illegal_rx_cap : ({ Config.c0 with rxCap := 6 } : Config).legal = false := by decide
theorem test_illegal_tx_cap : ({ Config.c0 with txCap := 6 } : Config).legal = false := by decide
theorem test_illegal_tick_bits : ({ Config.c0 with tickBits := 0, timeoutBudget := 0 } : Config).legal = false := by decide
theorem test_illegal_budget_zero : ({ Config.c0 with timeoutBudget := 0 } : Config).legal = false := by decide
theorem test_illegal_budget_large : ({ Config.c0 with timeoutBudget := 65536 } : Config).legal = false := by decide
theorem test_illegal_err_bits : ({ Config.c0 with errBits := 0 } : Config).legal = false := by decide

/-! ## Decode: words from 95_test_vectors.md V-DEC and 30_encoding.md R89 -/

theorem test_decode_crc_init : decode 0x10000000 = .ok .crcInit := by decide
theorem test_decode_crc_update : decode 0x200000FF = .ok (.crcUpdate 0xFF) := by decide
theorem test_decode_rx_byte : decode 0x30000041 = .ok (.rxByte 0x41) := by decide
theorem test_decode_rx_idle : decode 0x40000000 = .ok .rxIdle := by decide
theorem test_decode_rx_release : decode 0x50000000 = .ok .rxRelease := by decide
theorem test_decode_tx_slot_write : decode 0x61FF0042 = .ok (.txSlotWrite 511 0x42) := by decide
theorem test_decode_tx_send : decode 0x71010000 = .ok (.txSend 257) := by decide
theorem test_decode_tx_accept : decode 0x80000000 = .ok .txAccept := by decide
theorem test_decode_illegal_words :
    [0x00000000, 0x10000001, 0x10010000, 0x200100AB, 0x32000041, 0x30004100, 0x30010041, 0x40000001, 0x50000100,
      0x6E000041, 0x70020001, 0x80000001, 0x90000000, 0xF0000000].all
      (fun w : Word => (decode w).toOption.isNone) = true := by decide
theorem test_encode_rows :
    [encode .crcInit, encode (.crcUpdate 0xFF), encode (.rxByte 0x41), encode .rxIdle, encode .rxRelease,
      encode (.txSlotWrite 1 0x42), encode (.txSend 2), encode .txAccept]
      = [0x10000000, 0x200000FF, 0x30000041, 0x40000000, 0x50000000, 0x60010042, 0x70020000, 0x80000000] := by decide
/-- A table word is the whole 32-bit word; one longer than 32 bits is no command (30_encoding.md R94). -/
theorem test_decode_table_word :
    decodeTableWord 32 0x30000041 = some (.rxByte 0x41) ∧ decodeTableWord 40 0x30000041 = none := by decide

/-! ## Assembler lines (30_encoding.md R96) -/

theorem test_assemble_rx_byte :
    assembleLine "RX_BYTE 0x41 @ 7 ; a byte" = some (some (.rxByte 0x41, some 7)) := by decide
theorem test_assemble_slot_write : assembleLine "TX_SLOT_WRITE 1, 0x42" = some (some (.txSlotWrite 1 0x42, none)) := by
  decide
theorem test_assemble_comment : assembleLine " ; nothing" = some none := by decide
theorem test_assemble_rejects : assembleLine "TX_SEND 512" = none := by decide

/-! ## Buffers (20_memory.md R60) -/

/-- A write keeps the rising order, and a second write to an index replaces the first. -/
theorem test_memory_set :
    Memory.set (Memory.set (Memory.set [] 5 0x42) 4 0x41) 5 0x43 = [(4, 0x41), (5, 0x43)] := by decide
theorem test_memory_set_many : Memory.setMany [(3, 0x99)] 2 [0x11, 0x22] = [(2, 0x11), (3, 0x22)] := by decide

/-! ## CRC (95_test_vectors.md V-CRC-2, V-CRC-3) -/

theorem test_crc_short_folds :
    [crcFold 0xFFFF [0x00], crcFold 0xFFFF [0xFF], crcFold 0xFFFF [0x41], crcFold 0xFFFF [0x00, 0xAA],
      crcFold 0xFFFF [0xFF, 0x55]] = [0x0F87, 0x00FF, 0x5C0A, 0xFAE8, 0x0A50] := by decide
theorem test_crc_update_bits : crcUpdateBits 0x2F8D 0x32 = 0x4D53 := by decide
/-- 95_test_vectors.md S1. -/
theorem test_wire_frame :
    wireFrame 0x00 [0x41, 0x42] = [0xFF, 0x55, 0x00, 0x01, 0x41, 0x42, 0x18, 0xC2] := by decide

/-! ## One step of each command -/

/-- 41_crc.md R114, example. -/
theorem test_crc_init : after (exec .crcInit { base with crcAcc := 0x1234 }) (fun t => (t.crcAcc, t.status)) =
    some (0xFFFF, .ok) := by decide

/-- V-CRC-8. -/
theorem test_crc_update : after (exec (.crcUpdate 0x32) { base with crcAcc := 0x2F8D }) (fun t => (t.crcAcc, t.rxCrc)) =
    some (0x4D53, 0xFFFF) := by decide

/-- V-RX-1. -/
theorem test_rx_byte_sync : after (exec (.rxByte 0xFF) { base with now := 5 })
      (fun t => (t.rxPhase, t.rxIndex, t.rxByte 0, t.rxCrc, t.rxDeadline, t.rxLast)) =
    some (.sync1, 1, 0xFF, 0x00FF, 100, 5) := by decide

/-- V-RX-5: SIZE error at the boundary under C2, with the lengths written all the same. -/
theorem test_rx_byte_size : after
      (exec (.rxByte 0x0A) { State.resetFor c2 with rxPhase := .len, rxIndex := 3, rxCrc := 0x528F })
      (fun t => (t.rxPlen, t.rxExpected, t.rxPhase, t.rxErrCause, t.rxIndex, t.rxCrc)) =
    some (11, 17, .error, .size, 4, 0xD3F7) := by decide

/-- V-TO-2: the timer wraps from 0xFFF0 to 0x0010. -/
theorem test_rx_idle_wraps : after
      (exec .rxIdle { receiving .sync1 1 with rxLast := 0xFFF0, now := 0x0010 }) (fun t => (t.rxDeadline, t.rxLast)) =
    some (68, 0x0010) := by decide

/-- V-TO-4: a timeout at elapsed = deadline in LEN. -/
theorem test_rx_idle_fires : after (exec .rxIdle { receiving .len 3 with now := 100 })
      (fun t => (t.rxPhase, t.rxErrCause, t.errCount, t.txSrc, t.txRemaining, t.rxCrc)) =
    some (.sync0, .timeout, 1, .ctrl, 2, 0xFFFF) := by decide

/-- V-TO-13. -/
theorem test_rx_release : after (exec .rxRelease (inFrame .done 8))
      (fun t => (t.rxPhase, t.rxIndex, t.rxExpected, t.rxPlen, t.rxDeadline, t.status)) =
    some (.sync0, 0, 0, 0, 0, .ok) := by decide

/-- V-TX-1: the last slot byte under C2 is `tx_buf[13]`. -/
theorem test_tx_slot_write_last : after (exec (.txSlotWrite 9 0x42) (State.resetFor c2))
      (fun t => (t.txBuf, t.status)) = some ([(13, 0x42)], .ok) := by decide
/-- V-TX-1: the slot has 10 bytes under C2. -/
theorem test_tx_slot_write_past : after (exec (.txSlotWrite 10 0x43) (State.resetFor c2))
      (fun t => (t.txBuf, t.status)) = some ([], .unavailable) := by decide

/-- V-TX-5: id 02 after id 01, under C1. -/
theorem test_tx_send_id : after
      (exec (.txSend 2) { State.resetFor c1 with txBuf := [(4, 0x41), (5, 0x42)], txSeq := 0x01 })
      (fun t => (Memory.readRange .tx t.txBuf 0 8, t.txSeq, t.txRemaining, t.txLastLen)) =
    some ([0xFF, 0x55, 0x02, 0x01, 0x41, 0x42, 0x6E, 0xFB], 0x02, 8, 8) := by decide
/-- V-TX-6: no retention under C3. -/
theorem test_tx_send_no_retention : after (exec (.txSend 1) { State.resetFor c3 with txBuf := [(4, 0x41)] })
      (fun t => (t.txRemaining, t.txLastLen, t.txSeq)) = some (7, 0, 0x00) := by decide

/-- 43_tx.md R172: the second byte of a control frame. -/
theorem test_tx_accept_ctrl : after
      (exec .txAccept { base with txSrc := .ctrl, txRemaining := 2, txLastLen := 8 })
      (fun t => (t.txCursor, t.txRemaining, t.txLastLen, (txOut t).toOption)) = some (1, 1, 8, some (some 0xAA)) := by decide

/-- One step from the command stream: the word leaves it, and the timer value is sampled modulo 2^TICK_BITS (V-TO-10
shows the aliasing). -/
theorem test_step_runs : after (step (issuing 0x300000FF 65541 base))
      (fun t => (t.rxPhase, t.rxLast, t.commands)) = some (.sync1, 5, []) := by decide

/-- The fetch of the host's check: the very next step runs the word. -/
theorem test_with_fetch_word : after (step (State.reset.withFetchWord 32 0x300000FF))
      (fun t => (t.rxPhase, t.status)) = some (.sync1, .ok) := by decide

/-! ## Witnesses: a concrete state meets the hypotheses of each obligation, one for each clause -/

/-- The command completes. -/
abbrev Completes (i : Instr) (s : State) : Prop := ∃ t, exec i s = .next t

/-- The step answers a next state. -/
abbrev Steps (s : State) : Prop := ∃ t, step s = .next t

/-- Evaluating a command shows that it completes. -/
theorem completes {r : Result} (h : (after r fun _ => ()).isSome = true) : ∃ t, r = .next t := by
  cases r with
  | next t => exact ⟨t, rfl⟩
  | fault _ => exact absurd h (by simp [after])
  | refused _ => exact absurd h (by simp [after])

/-- A receiver in `ERROR` after one bad byte (V-RX-2c). -/
def failed : State := { receiving .error 1 with rxErrCause := .header, rxCrc := 0x5C0A, rxBuf := [(0, 0x41)] }

/-- A receiver that holds a complete resend-request, with a frame to resend. -/
def asked : State := { receiving .rrq 2 with rxRrq := true, txLastLen := 7 }

/-- A receiver that holds the completed frame of S1. -/
def arrived : State := { inFrame .done 8 with rxCrc := 0, rxBuf := [(4, 0x41), (5, 0x42)] }

/-- A transmitter with a 7-byte frame queued. -/
def queued : State := { base with txRemaining := 7, txLastLen := 7 }

theorem inv_base : Inv base :=
  ⟨by decide, by decide, by decide, by decide, by decide, by decide, by decide, by decide, by decide⟩
theorem inv_failed : Inv failed :=
  ⟨by decide, by decide, by decide, by decide, by decide, by decide, by decide, by decide, by decide⟩
theorem inv_asked : Inv asked :=
  ⟨by decide, by decide, by decide, by decide, by decide, by decide, by decide, by decide, by decide⟩
theorem inv_arrived : Inv arrived :=
  ⟨by decide, by decide, by decide, by decide, by decide, by decide, by decide, by decide, by decide⟩
theorem inv_queued : Inv queued :=
  ⟨by decide, by decide, by decide, by decide, by decide, by decide, by decide, by decide, by decide⟩

theorem witness_DecodeAndEncodeAgree : decode 0x61FF0042 = .ok (.txSlotWrite 511 0x42) := by decide

theorem witness_IllegalWordChangesNothing :
    (issuing 0x30010041 7 base).cfg.legal = true ∧ (issuing 0x30010041 7 base).commands = ⟨0x30010041, 7⟩ :: []
      ∧ ∃ e, decode 0x30010041 = .error e := ⟨by decide, rfl, _, rfl⟩

theorem witness_DecodedWordMatchesOneRow : decode 0x71000000 = .ok (.txSend 256) := by decide

theorem witness_OperandsStandInTheirFields : 511 < 512 ∧ 255 < 256 := by decide

theorem witness_StepRunsDecodedCommand :
    (issuing 0x300000FF 5 base).commands = ⟨0x300000FF, 5⟩ :: [] ∧ decode 0x300000FF = .ok (.rxByte 0xFF) :=
  ⟨rfl, by decide⟩

theorem witness_StepWaitsForTheHost : base.cfg.legal = true ∧ base.commands = [] := ⟨by decide, rfl⟩

theorem witness_IllegalConfigurationGetsNoBehaviour :
    (State.resetFor { Config.c0 with rxCap := 6 }).cfg.legal = false := by decide

theorem witness_ConfigurationNeverChanges : Steps (issuing 0x300000FF 5 base) ∧ Completes .rxIdle base :=
  ⟨completes (by decide), completes (by decide)⟩

theorem witness_RefusedCommandsChangeNothing :
    after (exec .txAccept base) (·.status) = some .unavailable ∧ after (exec (.txSend 0) base) (·.status) = some .busy
      ∧ after (step (issuing 0x30010041 7 base)) (·.status) = some .illegal
      ∧ after (step (issuing 0x80000000 7 base)) (·.status) = some .unavailable := by decide

theorem witness_CrcDetectsEveryOneByteChange : (0x41 : Byte) ≠ 0x40 := by decide

theorem witness_CrcInitSetsAccumulator :
    (0x10000001 : Word).extractLsb' 28 4 = 0x1 ∧ (0x10000001 : Word) ≠ 0x10000000 ∧ base.cfg.legal = true := by decide

theorem witness_CrcUpdateFoldsByte :
    (0x200100AB : Word).extractLsb' 28 4 = 0x2 ∧ (0x200100AB : Word) &&& 0xFFFFFF00 ≠ 0x20000000
      ∧ base.cfg.legal = true := by decide

theorem witness_AccumulatorIsSeparate :
    Instr.rxIdle ≠ .crcInit ∧ (∀ b, Instr.rxIdle ≠ .crcUpdate b) ∧ Completes .rxIdle base :=
  ⟨by decide, fun b h => (by cases h), completes (by decide)⟩

theorem witness_RxByteRefusedInDone : arrived.cfg.legal = true ∧ arrived.rxPhase = .done := by decide

theorem witness_RxByteStoresFoldsAndCounts :
    base.cfg.legal = true ∧ base.rxPhase ≠ .done ∧ base.rxIndex < base.cfg.rxCap
      ∧ (receiving .error 261).rxPhase ≠ .done ∧ (receiving .error 261).rxIndex < (receiving .error 261).cfg.rxCap
      ∧ (receiving .error 262).rxPhase ≠ .done := by decide

theorem witness_RxByteOverflowIsDropped :
    (receiving .error 262).cfg.legal = true ∧ (receiving .error 262).rxPhase ≠ .done
      ∧ (receiving .error 262).cfg.rxCap ≤ (receiving .error 262).rxIndex ∧ Inv (receiving .error 262)
      ∧ Inv (issuing 0x30000000 5 (receiving .error 262))
      ∧ (issuing 0x30000000 5 (receiving .error 262)).rxErrCause ≠ .bufferOverrun
      ∧ Steps (issuing 0x30000000 5 (receiving .error 262)) :=
  ⟨by decide, by decide, by decide,
    ⟨by decide, by decide, by decide, by decide, by decide, by decide, by decide, by decide, by decide⟩,
    ⟨by decide, by decide, by decide, by decide, by decide, by decide, by decide, by decide, by decide⟩,
    by decide, completes (by decide)⟩

theorem witness_SyncBytesSelectTheMode :
    base.rxIndex < base.cfg.rxCap ∧ base.rxPhase = .sync0 ∧ base.cfg.resendEn = true
      ∧ Completes (.rxByte 0xFF) base ∧ Completes (.rxByte 0x00) base ∧ Completes (.rxByte 0xFE) base
      ∧ (receiving .sync1 1).rxRrq = false ∧ Completes (.rxByte 0x55) (receiving .sync1 1)
      ∧ Completes (.rxByte 0x56) (receiving .sync1 1)
      ∧ Completes (.rxByte 0xAA) { receiving .sync1 1 with rxRrq := true }
      ∧ Completes (.rxByte 0x55) { receiving .sync1 1 with rxRrq := true }
      ∧ asked.rxPhase = .rrq ∧ Completes (.rxByte 0x01) asked :=
  ⟨by decide, by decide, by decide, completes (by decide), completes (by decide), completes (by decide), by decide,
    completes (by decide), completes (by decide), completes (by decide), completes (by decide), by decide,
    completes (by decide)⟩

theorem witness_IdAndLengthBytes :
    (receiving .id 2).rxIndex < (receiving .id 2).cfg.rxCap ∧ Completes (.rxByte 0xFF) (receiving .id 2)
      ∧ Completes (.rxByte 0xFF) (receiving .len 3) ∧ (0xFF : Byte).toNat + 7 ≤ (receiving .len 3).cfg.rxCap
      ∧ Completes (.rxByte 0x0A) { State.resetFor c2 with rxPhase := .len, rxIndex := 3 }
      ∧ c2.rxCap < (0x0A : Byte).toNat + 7 :=
  ⟨by decide, completes (by decide), completes (by decide), by decide, completes (by decide), by decide⟩

theorem witness_PayloadBytesAreCountedOff :
    (inFrame .payload 4).rxPhase = .payload ∧ Completes (.rxByte 0x41) (inFrame .payload 4)
      ∧ (inFrame .payload 5).rxIndex = 3 + (inFrame .payload 5).rxPlen.toNat
      ∧ Completes (.rxByte 0x42) (inFrame .payload 5)
      ∧ (inFrame .crclo 6).rxPhase = .crclo ∧ Completes (.rxByte 0x18) (inFrame .crclo 6) :=
  ⟨by decide, completes (by decide), by decide, completes (by decide), by decide, completes (by decide)⟩

/-- The CRC before the last byte of S1 is 0x00C2 (V-CRC-4); under C1 the frame's id 00 repeats (V-RX-10). -/
theorem witness_CrcHighByteValidates :
    (inFrame .crchi 7).rxIndex < (inFrame .crchi 7).cfg.rxCap ∧ (inFrame .crchi 7).rxPhase = .crchi
      ∧ crcUpdate 0x00C2 0x42 ≠ 0 ∧ Completes (.rxByte 0x42) { inFrame .crchi 7 with rxCrc := 0x00C2 }
      ∧ crcUpdate 0x00C2 0xC2 = 0 ∧ Completes (.rxByte 0xC2) { inFrame .crchi 7 with rxCrc := 0x00C2 }
      ∧ 4 + (inFrame .crchi 7).rxPlen.toNat ≤ (inFrame .crchi 7).cfg.rxCap
      ∧ c1.idEn = true ∧ Completes (.rxByte 0xC2) { inFrame .crchi 7 with cfg := c1, rxCrc := 0x00C2 } :=
  ⟨by decide, by decide, by decide, completes (by decide), by decide, completes (by decide), by decide, by decide,
    completes (by decide)⟩

theorem witness_ErrorAbsorbsBytes :
    failed.cfg.legal = true ∧ failed.rxPhase = .error
      ∧ (receiving .error 262).cfg.legal = true ∧ (receiving .error 262).rxPhase = .error := by decide

theorem witness_RxByteFrame : Completes (.rxByte 0xC2) { inFrame .crchi 7 with cfg := c1, rxCrc := 0x00C2, rxFrameId := 9 } :=
  completes (by decide)

theorem witness_WellFormedFrameReachesDone :
    base.cfg.legal = true ∧ base.rxPhase = .sync0 ∧ base.rxIndex = 0 ∧ base.rxCrc = 0xFFFF
      ∧ (List.replicate 256 (0x41 : Byte)).length = 256 ∧ 256 + 6 ≤ base.cfg.rxCap
      ∧ (base.cfg.idEn = true → (0x00 : Byte) ≠ base.rxLastId) ∧ (List.replicate 262 5).length = 256 + 6
      ∧ base.cfg.resendEn = true :=
  ⟨by decide, by decide, by decide, by decide, List.length_replicate, by decide, by decide, List.length_replicate,
    by decide⟩

theorem witness_ElapsedEqualsSourceFormula : 0xFFF0 < 2 ^ 16 ∧ 0x0010 < 2 ^ 16 := by decide

theorem witness_RxIdleSpendsTheBudget :
    arrived.rxPhase = .done
      ∧ (let s := { receiving .sync1 1 with now := 99 }
         s.cfg.legal = true ∧ s.rxPhase ≠ .done
           ∧ elapsedTicks s.cfg.tickBits s.rxLast (s.now % 2 ^ s.cfg.tickBits) < s.rxDeadline)
      ∧ (let s := { receiving .sync1 1 with now := 100 }
         s.rxDeadline ≤ elapsedTicks s.cfg.tickBits s.rxLast (s.now % 2 ^ s.cfg.tickBits)) := by decide

theorem witness_TimeoutResolvesAnError :
    (let s := { receiving .sync1 1 with now := 100 }
     s.cfg.legal = true ∧ 0 < s.rxIndex ∧ s.rxPhase ≠ .error ∧ s.rxPhase ≠ .rrq ∧ s.rxPhase ≠ .done
       ∧ s.rxDeadline ≤ elapsedTicks s.cfg.tickBits s.rxLast (s.now % 2 ^ s.cfg.tickBits))
      ∧ (let s := { failed with now := 100 }
         s.rxPhase = .error ∧ s.rxDeadline ≤ elapsedTicks s.cfg.tickBits s.rxLast (s.now % 2 ^ s.cfg.tickBits)) := by
  decide

theorem witness_TimeoutAnswersAResendRequest :
    (let s := { asked with now := 100 }
     s.cfg.legal = true ∧ s.rxPhase = .rrq
       ∧ s.rxDeadline ≤ elapsedTicks s.cfg.tickBits s.rxLast (s.now % 2 ^ s.cfg.tickBits)) := by decide

theorem witness_IdleLineHasNoSideEffect :
    base.cfg.legal = true ∧ Inv base ∧ CrcCoverage base ∧ base.rxPhase = .sync0 :=
  ⟨by decide, inv_base, ⟨by decide, by decide⟩, by decide⟩

theorem witness_OneErrorPerGap :
    (let s := { failed with now := 100 }
     Inv s ∧ 0 < s.rxIndex ∧ s.rxPhase ≠ .done
       ∧ s.rxDeadline ≤ elapsedTicks s.cfg.tickBits s.rxLast (s.now % 2 ^ s.cfg.tickBits) ∧ Completes .rxIdle s) :=
  ⟨⟨by decide, by decide, by decide, by decide, by decide, by decide, by decide, by decide, by decide⟩, by decide,
    by decide, by decide, completes (by decide)⟩

theorem witness_RxIdleCompletesAndKeepsTheRest : queued.cfg.legal = true ∧ queued.txRemaining ≠ 0 := by decide

theorem witness_RxReleaseReturnsToIdle :
    arrived.cfg.legal = true ∧ arrived.rxPhase = .done ∧ base.cfg.legal = true ∧ base.rxPhase ≠ .done := by decide

theorem witness_DoneIsLeftOnlyByRelease :
    arrived.rxPhase = .done ∧ after (step (issuing 0x50000000 5 arrived)) (·.rxPhase) = some .sync0 := by decide

theorem witness_ErrorIsLeftOnlyByTimeout :
    failed.rxPhase = .error ∧ after (step (issuing 0x40000000 100 failed)) (·.rxPhase) = some .sync0
      ∧ failed.cfg.resendEn = true ∧ failed.txRemaining = 0
      ∧ after (step (issuing 0x40000000 100 { failed with txRemaining := 7 })) (·.rxPhase) = some .sync0 := by decide

theorem witness_ErrorCounterCountsTimeoutsOnly :
    after (step (issuing 0x40000000 100 failed)) (·.errCount) = some 1 ∧ failed.errCount = 0
      ∧ (let s := issuing 0x40000000 100 (receiving .sync1 1)
         (after (step s) fun _ => ()).isSome = true ∧ s.commands = ⟨0x40000000, 100⟩ :: []
           ∧ decode 0x40000000 = .ok .rxIdle
           ∧ s.rxDeadline ≤ elapsedTicks s.cfg.tickBits s.rxLast (100 % 2 ^ s.cfg.tickBits)
           ∧ 0 < s.rxIndex ∧ s.rxPhase ≠ .rrq ∧ s.rxPhase ≠ .done) := by decide

theorem witness_TxSlotWriteStoresOneByte :
    base.cfg.legal = true ∧ base.txRemaining = 0 ∧ (255 : Len).toNat < min 256 (base.cfg.txCap - 6)
      ∧ min 256 (base.cfg.txCap - 6) ≤ (256 : Len).toNat ∧ queued.txRemaining ≠ 0 := by decide

theorem witness_TxSendIsRefused :
    base.cfg.legal = true ∧ queued.txRemaining ≠ 0 ∧ 256 < (257 : Len).toNat ∧ c2.legal = true
      ∧ c2.txCap < (11 : Len).toNat + 6 := by decide

theorem witness_TxSendBuildsTheWireFrame :
    base.cfg.legal = true ∧ base.txRemaining = 0 ∧ (256 : Len) ≠ 0 ∧ (256 : Len).toNat ≤ 256
      ∧ (256 : Len).toNat + 6 ≤ base.cfg.txCap := by decide

theorem witness_TxAcceptAdvancesTheCursor :
    base.cfg.legal = true ∧ base.txRemaining = 0 ∧ queued.txRemaining ≠ 0 ∧ queued.txCursor.toNat < 511
      ∧ ({ queued with txCursor := 510 } : State).txCursor.toNat < 511 := by decide

theorem witness_TxAcceptStopsOnlyAtTheTopCursor :
    ({ queued with txCursor := 511 } : State).cfg.legal = true ∧ queued.txRemaining ≠ 0 ∧ Inv queued :=
  ⟨by decide, by decide, inv_queued⟩

theorem witness_DrainHandsOverInOrder :
    queued.cfg.legal = true ∧ Inv queued ∧ 7 ≤ queued.txRemaining.toNat
      ∧ (let s := { base with txSrc := .ctrl, txRemaining := 2 }
         Inv s ∧ 2 ≤ s.txRemaining.toNat) :=
  ⟨by decide, inv_queued, by decide,
    ⟨by decide, by decide, by decide, by decide, by decide, by decide, by decide, by decide, by decide⟩, by decide⟩

theorem witness_ResendIsVerbatim :
    (let s := { asked with now := 100 }
     Inv s ∧ s.rxPhase = .rrq ∧ s.txLastLen ≠ 0 ∧ s.txRemaining = 0
       ∧ s.rxDeadline ≤ elapsedTicks s.cfg.tickBits s.rxLast (s.now % 2 ^ s.cfg.tickBits) ∧ Completes .rxIdle s) :=
  ⟨⟨by decide, by decide, by decide, by decide, by decide, by decide, by decide, by decide, by decide⟩, by decide,
    by decide, by decide, by decide, completes (by decide)⟩

theorem witness_SentPayloadArrives :
    (let a := { base with txBuf := [(4, 0x41)] }
     a.txRemaining = 0 ∧ (1 : Len) ≠ 0 ∧ (1 : Len).toNat ≤ 256 ∧ (1 : Len).toNat + 6 ≤ a.cfg.txCap
       ∧ Completes (.txSend 1) a ∧ base.cfg.legal = true ∧ base.rxPhase = .sync0 ∧ base.rxIndex = 0
       ∧ base.rxCrc = 0xFFFF ∧ (1 : Len).toNat + 6 ≤ base.cfg.rxCap
       ∧ (base.cfg.idEn = true → (if a.cfg.idEn = true then a.txSeq + 1 else 0x00) ≠ base.rxLastId)) :=
  ⟨by decide, by decide, by decide, by decide, completes (by decide), by decide, by decide, by decide, by decide,
    by decide, by decide⟩

theorem witness_ResetMeetsTheInvariants : Config.c0.legal = true ∧ c1.legal = true ∧ c2.legal = true ∧ c3.legal = true := by
  decide

theorem witness_ReachableStatesSatisfyTheElevenInvariants : Reachable State.reset := .atReset Config.c0 (by decide)

theorem witness_StepKeepsTheInvariants :
    Inv (issuing 0x300000FF 5 base) ∧ Steps (issuing 0x300000FF 5 base) :=
  ⟨⟨by decide, by decide, by decide, by decide, by decide, by decide, by decide, by decide, by decide⟩,
    completes (by decide)⟩

theorem witness_StepKeepsWidthsAndBuffers :
    WidthInv (issuing 0x300000FF 5 base) ∧ BufferInv (issuing 0x300000FF 5 base)
      ∧ Steps (issuing 0x300000FF 5 base) := ⟨by decide, by decide, completes (by decide)⟩

/-- After the first byte of a frame (V-RX-1). -/
theorem witness_StepKeepsReceiveCrcCoverage :
    (let s := issuing 0x30000055 6 { receiving .sync1 1 with rxBuf := [(0, 0xFF)], rxCrc := 0x00FF }
     CrcCoverage s ∧ Steps s) := ⟨⟨by decide, by decide⟩, completes (by decide)⟩

theorem witness_PayloadPortShowsThePayload : Inv arrived ∧ arrived.rxPhase = .done ∧ 1 < arrived.rxPlen.toNat
    ∧ base.rxPhase ≠ .done := ⟨inv_arrived, by decide, by decide, by decide⟩

theorem witness_NoiseKeepsTheTickRunning : failed.cfg.legal = true ∧ Inv failed ∧ failed.rxPhase = .error :=
  ⟨by decide, inv_failed, by decide⟩

/-- A completed frame behind a sink that refuses, and one behind an idle transmitter, whose handler is called. -/
theorem witness_HandlerWaitsForTheTransmitter :
    (let s := { arrived with txRemaining := 1, txCursor := 6, txBuf := [(6, 0x18)] }
     drain [] s = .next ⟨s, [], []⟩ ∧ s.rxPhase = .done ∧ s.txRemaining ≠ 0)
      ∧ drain [] arrived = .next ⟨arrived, [], []⟩
      ∧ ∃ r, tick (fun _ _ => ⟨[], none⟩) [] [] arrived = .next r ∧ r.called = some (2, [0x41, 0x42]) :=
  ⟨⟨rfl, by decide, by decide⟩, rfl, ⟨_, rfl, rfl⟩⟩

end Sys2Proof.Tests
end

section
/-!
PROOF. How a step of the block answers when a command stands in the host's stream, and the obligations of
spec/00_scope.md.
-/

namespace Sys2Proof.Machine

/-- Every command asks for a legal configuration first (70_reset_and_hazards.md R250, R251). -/
theorem exec_refused_of_illegal {s : State} (h : s.cfg.legal = false) (i : Instr) :
    exec i s = .refused .illegalConfiguration := by
  cases i <;> exact configured_illegal h _

theorem runWord_of_decode_ok {w : Word} {i : Instr} (h : decode w = .ok i) (s : State) : runWord w s = exec i s := by
  simp only [runWord, h]

theorem step_refused_of_illegal {s : State} (h : s.cfg.legal = false) : step s = .refused .illegalConfiguration :=
  configured_illegal h _

/-- With a legal configuration a step takes the next command and runs its word (00_scope.md R16). -/
theorem step_of_commands_cons {s : State} {c : Command} {rest : List Command} (hl : s.cfg.legal = true)
    (hs : s.commands = c :: rest) : step s = runWord c.word (takeCommand c rest s) := by
  simp only [step, nextCommand, configured_legal hl, hs]

/-- Settles O6: a legal configuration runs the decoded command, and any other is refused by the step and by the
command alike. -/
theorem stepRunsDecodedCommand : Obligations.StepRunsDecodedCommand := by
  intro s c rest i hs hd
  change step s = exec i (takeCommand c rest s)
  cases hl : s.cfg.legal with
  | true => rw [step_of_commands_cons hl hs, runWord_of_decode_ok hd]
  | false => rw [step_refused_of_illegal hl, exec_refused_of_illegal (by rwa [takeCommand_cfg])]

end Sys2Proof.Machine
end

section
/-!
PROOF. What the phase function writes besides the phase, what a timeout does to the registers it may write, and that no
command writes the configuration.
-/

namespace Sys2Proof.Machine

/-- Which phase's rule writes a receive register (42_rx_parser.md R136 to R147): `rx_rrq` in `SYNC0`, `rx_frame_id` in
`ID`, the lengths in `LEN`, `rx_last_id` on acceptance with `ID_EN` = 1, the cause on entering `ERROR`. -/
theorem rxStep_writes (b : Byte) (i : Nat) (s : State) :
    (s.rxPhase ≠ .sync0 → (rxStep b i s).rxRrq = s.rxRrq)
      ∧ (s.rxPhase ≠ .id → (rxStep b i s).rxFrameId = s.rxFrameId)
      ∧ (s.rxPhase ≠ .len → (rxStep b i s).rxPlen = s.rxPlen ∧ (rxStep b i s).rxExpected = s.rxExpected)
      ∧ (¬(s.rxPhase = .crchi ∧ (rxStep b i s).rxPhase = .done ∧ s.cfg.idEn = true) →
          (rxStep b i s).rxLastId = s.rxLastId)
      ∧ ((rxStep b i s).rxPhase ≠ .error ∨ s.rxPhase = .error → (rxStep b i s).rxErrCause = s.rxErrCause) := by
  cases hp : s.rxPhase <;> simp only [rxStep, hp]
  case sync0 => unfold stepSync0; split_ifs <;> simp
  case sync1 => unfold stepSync1; split_ifs <;> simp
  case id => simp [stepId]
  case len => unfold stepLen; dsimp only; split_ifs <;> simp
  case payload => simp [stepPayload_eq]
  case crchi => unfold stepCrcHi; split_ifs <;> simp_all
  all_goals simp

/-- A timeout counts an error when it finds one, standing or forced (44_timeout_and_tick.md R193). -/
theorem timeoutFire_errCount (s : State) :
    (timeoutFire s).errCount =
      if s.rxPhase = .error ∨ 0 < s.rxIndex ∧ s.rxPhase ≠ .rrq ∧ s.rxPhase ≠ .done then
        (s.errCount + 1) % 2 ^ s.cfg.errBits
      else s.errCount := by
  rcases timeoutFire_cases s with ⟨hi, e⟩ | ⟨hp, e⟩ | ⟨hp, e⟩ | ⟨hi, hp, hq, e⟩
  · obtain ⟨h0, -, hq, hd⟩ := inProgress_iff.1 hi
    simp [e, countError, h0, hq, hd]
  · simp [e, countError, hp]
  · simp [e, hp]
  · rw [if_neg]
    · simp [e]
    · rintro (h | ⟨h0, -, hd⟩)
      · exact hp h
      · simp [inProgress_iff.2 ⟨h0, hp, hq, hd⟩] at hi

/-- No command writes the configuration (10_state.md R48), and only RX_IDLE writes the error counter (R32). -/
theorem exec_keeps_cfg_errCount {i : Instr} {s t : State} (h : exec i s = .next t) :
    t.cfg = s.cfg ∧ (i ≠ .rxIdle → t.errCount = s.errCount) := by
  cases i with
  | crcInit => obtain ⟨-, rfl⟩ := execCrcInit_next h; exact ⟨rfl, fun _ => rfl⟩
  | crcUpdate b => obtain ⟨-, rfl⟩ := execCrcUpdate_next h; exact ⟨rfl, fun _ => rfl⟩
  | rxByte b =>
    obtain ⟨-, ⟨-, rfl⟩ | ⟨-, -, rfl⟩ | ⟨-, -, rfl⟩⟩ := execRxByte_next h
    · exact ⟨rfl, fun _ => rfl⟩
    · simp
    · obtain ⟨hcfg, -, -, -, -, herr, -⟩ := rxStep_keeps b s.rxIndex (takeByte b (loadDeadline s))
      exact ⟨hcfg, fun _ => herr⟩
  | rxIdle =>
    refine ⟨?_, fun hi => absurd rfl hi⟩
    obtain ⟨-, ⟨-, rfl⟩ | ⟨-, -, rfl⟩ | ⟨-, -, rfl⟩⟩ := execRxIdle_next h
    · rfl
    · exact (timeoutFire_keeps _).1
    · rfl
  | rxRelease => obtain ⟨-, ⟨-, rfl⟩ | ⟨-, rfl⟩⟩ := execRxRelease_next h <;> exact ⟨rfl, fun _ => rfl⟩
  | txSlotWrite k b => obtain ⟨-, ⟨-, rfl⟩ | ⟨-, -, -, rfl⟩⟩ := execTxSlotWrite_next h <;> exact ⟨rfl, fun _ => rfl⟩
  | txSend n => obtain ⟨-, ⟨-, rfl⟩ | ⟨-, -, rfl⟩⟩ := execTxSend_next h <;> exact ⟨rfl, fun _ => rfl⟩
  | txAccept => obtain ⟨-, ⟨-, rfl⟩ | ⟨-, -, rfl⟩⟩ := execTxAccept_next h <;> exact ⟨rfl, fun _ => rfl⟩

theorem exec_keeps_cfg {i : Instr} {s t : State} (h : exec i s = .next t) : t.cfg = s.cfg :=
  (exec_keeps_cfg_errCount h).1

theorem exec_keeps_errCount {i : Instr} {s t : State} (hi : i ≠ .rxIdle) (h : exec i s = .next t) :
    t.errCount = s.errCount :=
  (exec_keeps_cfg_errCount h).2 hi

end Sys2Proof.Machine
end

section
/-!
PROOF. The invariants of spec/10_state.md R52 read phase by phase, and that every command and every step keeps them.
-/

namespace Sys2Proof.Machine

/-! ## The invariants, phase by phase -/

/-- Before the length byte both lengths are 0 (10_state.md R24, R25). -/
def LengthsUnset (s : State) : Prop := s.rxExpected = 0 ∧ s.rxPlen = 0

/-- After an accepted length byte the frame fits the receive buffer (R52 item 5). -/
def LengthsFit (s : State) : Prop :=
  s.rxExpected.toNat = s.rxPlen.toNat + 6 ∧ 1 ≤ s.rxPlen.toNat ∧ s.rxPlen.toNat ≤ 256
    ∧ s.rxPlen.toNat + 6 ≤ s.cfg.rxCap

/-- What the clauses of `Inv` that name a phase ask of the receive registers in phase `p`. -/
def PhaseInv (s : State) : Phase → Prop
  | .sync0 => s.rxIndex = 0 ∧ LengthsUnset s ∧ s.rxRrq = false ∧ s.rxDeadline = 0
  | .sync1 => s.rxIndex = 1 ∧ LengthsUnset s
  | .id => s.rxIndex = 2 ∧ LengthsUnset s ∧ s.rxRrq = false
  | .len => s.rxIndex = 3 ∧ LengthsUnset s ∧ s.rxRrq = false
  | .payload => (4 ≤ s.rxIndex ∧ s.rxIndex ≤ 3 + s.rxPlen.toNat) ∧ LengthsFit s ∧ s.rxRrq = false
  | .crclo => s.rxIndex = 4 + s.rxPlen.toNat ∧ LengthsFit s ∧ s.rxRrq = false
  | .crchi => s.rxIndex = 5 + s.rxPlen.toNat ∧ LengthsFit s ∧ s.rxRrq = false
  | .rrq => s.rxIndex = 2 ∧ LengthsUnset s ∧ s.rxRrq = true
  | .done => s.rxIndex = 6 + s.rxPlen.toNat ∧ LengthsFit s ∧ s.rxRrq = false
  | .error => s.rxIndex ≠ 0

/-- The receive side of `Inv`: what holds in every phase, and what the phase adds. -/
structure RxInv (s : State) : Prop where
  index : s.rxIndex ≤ s.cfg.rxCap
  resendEnabled : ResendEnabledInv s
  deadline : s.rxDeadline ≤ s.cfg.timeoutBudget
  poll : PollInv s
  phase : PhaseInv s s.rxPhase

theorem rxInv_of_inv {s : State} (h : Inv s) : RxInv s := by
  obtain ⟨⟨hcap, h0, h1, h2, h3⟩, ⟨hpay, hlo, hhi, hdone, hlen⟩, hunset, ⟨hon, hrrq⟩, hen, ⟨hdl, hdl0⟩, hpoll, -, -⟩ :=
    h
  have hoff (h1 : s.rxPhase ≠ .sync1) (h2 : s.rxPhase ≠ .rrq) (h3 : s.rxPhase ≠ .error) : s.rxRrq = false :=
    Bool.eq_false_iff.2 fun hr => by simpa [h1, h2, h3] using hon hr
  have hfit (hp : s.rxPhase = .payload ∨ s.rxPhase = .crclo ∨ s.rxPhase = .crchi ∨ s.rxPhase = .done) :
      LengthsFit s := by
    obtain ⟨hexp, hpos, hmax, hle⟩ := hlen hp
    exact ⟨hexp, hpos, hmax, hexp ▸ hle⟩
  refine ⟨hcap, hen, hdl, hpoll, ?_⟩
  cases hp : s.rxPhase <;> simp only [hp, ne_eq, reduceCtorEq, not_false_eq_true, forall_const] at hoff
  case sync0 => exact ⟨h0.1 hp, hunset (by simp [hp]), hoff, hdl0 hp⟩
  case sync1 => exact ⟨h1 hp, hunset (by simp [hp])⟩
  case id => exact ⟨h2 (.inl hp), hunset (by simp [hp]), hoff⟩
  case len => exact ⟨h3 hp, hunset (by simp [hp]), hoff⟩
  case payload => exact ⟨hpay hp, hfit (by simp [hp]), hoff⟩
  case crclo => exact ⟨hlo hp, hfit (by simp [hp]), hoff⟩
  case crchi => exact ⟨hhi hp, hfit (by simp [hp]), hoff⟩
  case rrq => exact ⟨h2 (.inr hp), hunset (by simp [hp]), (hrrq hp).1⟩
  case done =>
    obtain ⟨hidx, hexp, -⟩ := hdone hp
    exact ⟨by omega, hfit (by simp [hp]), hoff⟩
  case error => exact fun hi => by simpa [hp] using h0.2 hi

/-- `Inv` is the receive side phase by phase, the drainer's clauses and the ids' clause. -/
theorem inv_iff {s : State} : Inv s ↔ RxInv s ∧ DrainInv s ∧ IdInv s := by
  refine ⟨fun h => ⟨rxInv_of_inv h, h.drain, h.ids⟩, ?_⟩
  rintro ⟨⟨hcap, hen, hdl, hpoll, hp⟩, hdrain, hids⟩
  cases hph : s.rxPhase <;> rw [hph] at hp <;> simp only [PhaseInv, LengthsUnset, LengthsFit] at hp <;>
    refine ⟨?_, ?_, ?_, ?_, hen, ?_, hpoll, hdrain, hids⟩ <;>
    simp [IndexInv, LengthInv, UnsetLengthInv, ResendModeInv, DeadlineInv, hph, hp, hdl, hcap, hen] <;> omega

/-- The registers that no clause of `Inv` names. -/
theorem Inv.with_unnamed {s : State} (h : Inv s) (a : Crc) (tb : Memory) (cs : List Command) (n : Nat) (st : Status) :
    Inv { s with crcAcc := a, txBuf := tb, commands := cs, now := n, status := st } :=
  ⟨h.index, h.lengths, h.unsetLengths, h.resendMode, h.resendEnabled, h.deadline, h.poll, h.drain, h.ids⟩

/-! ## The receive side -/

/-- A latched error asks for no more than a byte stored. -/
@[simp] theorem phaseInv_enterError (c : ErrCause) (s : State) :
    PhaseInv (enterError c s) .error ↔ s.rxIndex ≠ 0 := by
  simp [PhaseInv]

/-- The phase function takes the registers of a phase, with the byte counted, to those of the phase it selects. -/
theorem rxStep_phaseInv (b : Byte) {s : State} (h : PhaseInv s s.rxPhase) (hd : s.rxPhase ≠ .done) :
    PhaseInv (rxStep b s.rxIndex (takeByte b (loadDeadline s)))
      (rxStep b s.rxIndex (takeByte b (loadDeadline s))).rxPhase := by
  cases hp : s.rxPhase <;> rw [hp] at h <;> simp only [rxStep, takeByte_rxPhase, loadDeadline_rxPhase, hp]
  case sync0 =>
    unfold stepSync0
    split_ifs <;> simp_all [PhaseInv, LengthsUnset]
  case sync1 =>
    unfold stepSync1
    split_ifs <;> simp_all [PhaseInv, LengthsUnset]
  case id => simp_all [stepId, PhaseInv, LengthsUnset]
  case len =>
    unfold stepLen
    dsimp only
    split_ifs with hc
    · simp
    · simp_all [PhaseInv, LengthsFit]
      bv_omega
  case payload =>
    rw [stepPayload_eq]
    split_ifs with hi <;> simp_all [PhaseInv, LengthsFit] <;> omega
  case crclo =>
    simp_all [PhaseInv, LengthsFit]
    omega
  case crchi =>
    unfold stepCrcHi
    split_ifs <;> simp_all [PhaseInv, LengthsFit] <;> omega
  case rrq => simp
  case done => exact absurd hp hd
  case error => simp_all [PhaseInv]

/-- The resend sub-mode is entered with `RESEND_EN` only (10_state.md R22). -/
theorem rxStep_resendEnabledInv (b : Byte) (i : Nat) {s : State} (h : ResendEnabledInv s) :
    ResendEnabledInv (rxStep b i s) := by
  intro hr
  rw [(rxStep_keeps b i s).1]
  by_cases hp : s.rxPhase = .sync0
  · simp only [rxStep, hp] at hr
    unfold stepSync0 at hr
    split_ifs at hr with h1 h2
    · exact h2.2
    · exact h (by simpa using hr)
  · exact h (by rwa [(rxStep_writes b i s).1 hp] at hr)

/-- With the buffer full a state in any phase but `DONE` is in `ERROR` (42_rx_parser.md R133). -/
theorem RxInv.error_of_full {s : State} (h : RxInv s) (hl : s.cfg.legal = true) (hd : s.rxPhase ≠ .done)
    (hc : s.cfg.rxCap ≤ s.rxIndex) : s.rxPhase = .error := by
  have hp := h.phase
  obtain ⟨hcap, -⟩ := legal_iff.1 hl
  by_contra hne
  cases hph : s.rxPhase <;> rw [hph] at hp <;> simp only [PhaseInv, LengthsFit] at hp
  case done => exact hd hph
  case error => exact hne hph
  all_goals omega

theorem rxInv_rxIdleReset (s : State) : RxInv (rxIdleReset s) := by
  constructor <;> simp [PhaseInv, LengthsUnset, PollInv, ResendEnabledInv]

/-- A byte stored: the deadline is loaded, the byte is counted, and the phase function follows. -/
theorem RxInv.store {s : State} (h : RxInv s) (b : Byte) (hl : s.cfg.legal = true) (hd : s.rxPhase ≠ .done)
    (hc : s.rxIndex < s.cfg.rxCap) : RxInv (rxStep b s.rxIndex (takeByte b (loadDeadline s))) := by
  obtain ⟨hcfg, hidx, -, hdl, -⟩ := rxStep_keeps b s.rxIndex (takeByte b (loadDeadline s))
  obtain ⟨-, -, -, hbudget, -⟩ := legal_iff.1 hl
  refine ⟨?_, rxStep_resendEnabledInv b _ h.resendEnabled, ?_, .inr ?_, rxStep_phaseInv b h.phase hd⟩
  · rw [hcfg, hidx]; exact hc
  · rw [hcfg, hdl]; exact le_rfl
  · rw [hdl]; exact Nat.ne_of_gt hbudget

/-- A byte dropped: only the deadline changes, since the phase is already `ERROR`. -/
theorem RxInv.drop {s : State} (h : RxInv s) (hl : s.cfg.legal = true) (hp : s.rxPhase = .error) :
    RxInv (loadDeadline s) := by
  obtain ⟨-, -, -, hbudget, -⟩ := legal_iff.1 hl
  have hph := h.phase
  rw [hp] at hph
  exact ⟨h.index, h.resendEnabled, le_rfl, .inr (Nat.ne_of_gt hbudget), by rw [loadDeadline_rxPhase, hp]; exact hph⟩

/-- Spending less than the deadline leaves it armed (44_timeout_and_tick.md R192). -/
theorem RxInv.spend {s : State} (h : RxInv s) {e : Nat} (he : e < s.rxDeadline) (last : Nat) :
    RxInv { s with rxLast := last, rxDeadline := s.rxDeadline - e } := by
  refine ⟨h.index, h.resendEnabled, (Nat.sub_le _ _).trans h.deadline, .inr (by dsimp only; omega), ?_⟩
  have hp := h.phase
  cases hph : s.rxPhase <;> rw [hph] at hp
  case sync0 =>
    obtain ⟨-, -, -, hdl⟩ := hp
    omega
  all_goals exact hp

/-! ## The transmit side and the ids -/

/-- What the transmit clauses read. -/
theorem DrainInv.congr {s t : State} (h : DrainInv s) (hcfg : t.cfg = s.cfg) (hsrc : t.txSrc = s.txSrc)
    (hcur : t.txCursor = s.txCursor) (hrem : t.txRemaining = s.txRemaining) (hlast : t.txLastLen = s.txLastLen) :
    DrainInv t := by
  simpa only [DrainInv, hcfg, hsrc, hcur, hrem, hlast] using h

theorem armCtrl_drainInv {s : State} (h : DrainInv s) : DrainInv (armCtrl s) := by
  unfold armCtrl
  split
  · obtain ⟨-, -, hlast, hret⟩ := h
    exact ⟨fun _ _ => rfl, fun _ hs => by simp at hs, hlast, hret⟩
  · exact h

theorem armResend_drainInv {s : State} (h : DrainInv s) : DrainInv (armResend s) := by
  unfold armResend
  split
  · next ha =>
    obtain ⟨-, -, hlast, hret⟩ := h
    refine ⟨fun _ hs => by simp at hs, fun _ _ => ?_, hlast, hret⟩
    simpa using hlast.resolve_left ha.1
  · exact h

theorem timeoutFire_drainInv {s : State} (h : DrainInv s) : DrainInv (timeoutFire s) := by
  rcases timeoutFire_cases s with ⟨-, e⟩ | ⟨-, e⟩ | ⟨-, e⟩ | ⟨-, -, -, e⟩ <;> rw [e]
  · exact armCtrl_drainInv (s := countError (enterError .timeout s)) <|
      h.congr (by simp) (by simp) (by simp) (by simp) (by simp)
  · exact armCtrl_drainInv (s := countError s) h
  · exact armResend_drainInv h
  · exact h

/-- A frame of `n` payload bytes queued (43_tx.md R168, R169). -/
theorem DrainInv.send {s : State} (h : DrainInv s) {n : Len} (hn : sendable s.cfg n = true) (u : State)
    (hcfg : u.cfg = s.cfg) (hlast : u.txLastLen = retainedLength n s) :
    DrainInv (armDrainer .frame (n + 6) u) := by
  obtain ⟨h0, h256, hcap⟩ := sendable_iff.1 hn
  have hlen : (n + 6).toNat = n.toNat + 6 := by bv_omega
  have hpos : n.toNat ≠ 0 := by bv_omega
  obtain ⟨-, -, hl, hret⟩ := h
  refine ⟨fun _ hs => by simp at hs, fun _ _ => ?_, ?_, ?_⟩
  · simp [hcfg]; omega
  · simp only [armDrainer_txLastLen, armDrainer_cfg, hcfg, hlast, retainedLength]
    split
    · right; omega
    · exact hl
  · simp only [armDrainer_txLastLen, armDrainer_cfg, hcfg, hlast, retainedLength]
    intro hr
    simpa [hr] using hret hr

/-- A byte handed over moves one from what remains to the cursor (43_tx.md R172). -/
theorem DrainInv.accept {s : State} (h : DrainInv s) (hr : s.txRemaining ≠ 0) (hc : s.txCursor ≠ 511) (st : Status) :
    DrainInv { s with txCursor := s.txCursor + 1, txRemaining := s.txRemaining - 1, status := st } := by
  have hsum : (s.txCursor + 1).toNat + (s.txRemaining - 1).toNat = s.txCursor.toNat + s.txRemaining.toNat := by
    bv_omega
  obtain ⟨hctrl, hframe, hlast, hret⟩ := h
  exact ⟨fun _ hs => by rw [hsum]; exact hctrl hr hs, fun _ hs => by rw [hsum]; exact hframe hr hs, hlast, hret⟩

/-! ## Every command -/

theorem execRxByte_keeps_inv {b : Byte} {s t : State} (hs : Inv s) (h : execRxByte b s = .next t) : Inv t := by
  obtain ⟨hrx, hdrain, hids⟩ := inv_iff.1 hs
  obtain ⟨hl, ⟨-, rfl⟩ | ⟨hd, hc, rfl⟩ | ⟨hd, hc, rfl⟩⟩ := execRxByte_next h
  · exact hs.with_unnamed ..
  · have hp := hrx.error_of_full hl hd hc
    rw [enterError_of_error (by simpa using hp)]
    exact (inv_iff.2 ⟨hrx.drop hl hp, hdrain, hids⟩).with_unnamed ..
  · obtain ⟨hcfg, -, -, -, -, -, -, -, hsrc, hcur, hrem, hlast, hseq, -⟩ :=
      rxStep_keeps b s.rxIndex (takeByte b (loadDeadline s))
    refine (inv_iff.2 ⟨hrx.store b hl hd hc, hdrain.congr hcfg hsrc hcur hrem hlast, fun hid => ?_⟩).with_unnamed ..
    rw [hcfg] at hid
    obtain ⟨-, -, -, hlid, -⟩ := rxStep_writes b s.rxIndex (takeByte b (loadDeadline s))
    rw [hseq, hlid fun hw => by simp_all]
    exact hids hid

theorem execRxIdle_keeps_inv {s t : State} (hs : Inv s) (h : execRxIdle s = .next t) : Inv t := by
  obtain ⟨hrx, hdrain, hids⟩ := inv_iff.1 hs
  obtain ⟨hl, ⟨-, rfl⟩ | ⟨hd, hc, rfl⟩ | ⟨hd, hc, rfl⟩⟩ := execRxIdle_next h
  · exact hs.with_unnamed ..
  · have hfired : Inv (timeoutFire { s with rxLast := sampleNow s }) := by
      obtain ⟨hcfg, -, -, -, -, hlid, hseq, -⟩ := timeoutFire_keeps { s with rxLast := sampleNow s }
      refine inv_iff.2 ⟨rxInv_rxIdleReset _, timeoutFire_drainInv hdrain, fun hid => ?_⟩
      rw [hlid, hseq]
      exact hids (by rwa [hcfg] at hid)
    exact hfired.with_unnamed ..
  · exact (inv_iff.2 ⟨hrx.spend hc _, hdrain, hids⟩).with_unnamed ..

theorem execTxSend_keeps_inv {n : Len} {s t : State} (hs : Inv s) (h : execTxSend n s = .next t) : Inv t := by
  obtain ⟨hrx, hdrain, hids⟩ := inv_iff.1 hs
  obtain ⟨-, ⟨-, rfl⟩ | ⟨-, hn, rfl⟩⟩ := execTxSend_next h
  · exact hs.with_unnamed ..
  · have hqueued : Inv (armDrainer .frame (n + 6)
        { s with txSeq := nextSeq s, txLastLen := retainedLength n s }) := by
      refine inv_iff.2 ⟨⟨hrx.index, hrx.resendEnabled, hrx.deadline, hrx.poll, hrx.phase⟩,
        hdrain.send hn _ rfl rfl, fun hid => ?_⟩
      obtain ⟨hlid, hseq⟩ := hids hid
      exact ⟨hlid, by simpa [nextSeq, show s.cfg.idEn = false from hid] using hseq⟩
    exact hqueued.with_unnamed ..

theorem exec_keeps_inv {i : Instr} {s t : State} (hs : Inv s) (h : exec i s = .next t) : Inv t := by
  cases i with
  | crcInit => obtain ⟨-, rfl⟩ := execCrcInit_next h; exact hs.with_unnamed ..
  | crcUpdate b => obtain ⟨-, rfl⟩ := execCrcUpdate_next h; exact hs.with_unnamed ..
  | rxByte b => exact execRxByte_keeps_inv hs h
  | rxIdle => exact execRxIdle_keeps_inv hs h
  | rxRelease =>
    obtain ⟨-, ⟨-, rfl⟩ | ⟨-, rfl⟩⟩ := execRxRelease_next h
    · exact (inv_iff.2 ⟨rxInv_rxIdleReset s, hs.drain, hs.ids⟩).with_unnamed ..
    · exact hs.with_unnamed ..
  | txSlotWrite k b =>
    obtain ⟨-, ⟨-, rfl⟩ | ⟨-, -, -, rfl⟩⟩ := execTxSlotWrite_next h <;> exact hs.with_unnamed ..
  | txSend n => exact execTxSend_keeps_inv hs h
  | txAccept =>
    obtain ⟨-, ⟨-, rfl⟩ | ⟨hr, hc, rfl⟩⟩ := execTxAccept_next h
    · exact hs.with_unnamed ..
    · exact ⟨hs.index, hs.lengths, hs.unsetLengths, hs.resendMode, hs.resendEnabled, hs.deadline, hs.poll,
        hs.drain.accept hr hc .ok, hs.ids⟩

/-- Settles O52: the host's stream is named by no clause of `Inv`, and every command keeps `Inv`. -/
theorem stepKeepsTheInvariants : Obligations.StepKeepsTheInvariants := by
  intro s t hs h
  exact step_preserves (fun _ _ _ _ hu => hu.with_unnamed ..) (fun _ _ _ hu hx => exec_keeps_inv hu hx) hs h

end Sys2Proof.Machine
end

section
/-!
PROOF. The obligations of spec/10_state.md on what a command leaves unchanged: the configuration, the error counter, the
accumulator, and the frame of RX_BYTE.
-/

namespace Sys2Proof.Machine

/-- Settles O9: no command writes the configuration, and the host's stream is beside it. -/
theorem configurationNeverChanges : Obligations.ConfigurationNeverChanges := by
  refine ⟨fun s t h => ?_, fun i s t h => exec_keeps_cfg h⟩
  exact step_preserves (P := fun u => u.cfg = s.cfg) (fun _ _ _ _ hu => hu)
    (fun _ _ _ hu hx => (exec_keeps_cfg hx).trans hu) rfl h

/-! ## The error counter -/

/-- What RX_IDLE does to the counter (44_timeout_and_tick.md R190 to R193). -/
theorem execRxIdle_errCount {s t : State} (h : execRxIdle s = .next t) :
    t.errCount =
      if s.rxDeadline ≤ elapsedTicks s.cfg.tickBits s.rxLast (sampleNow s)
          ∧ (s.rxPhase = .error ∨ 0 < s.rxIndex ∧ s.rxPhase ≠ .rrq ∧ s.rxPhase ≠ .done) then
        (s.errCount + 1) % 2 ^ s.cfg.errBits
      else s.errCount := by
  obtain ⟨-, ⟨hd, rfl⟩ | ⟨-, hc, rfl⟩ | ⟨-, hc, rfl⟩⟩ := execRxIdle_next h
  · simp [hd]
  · simpa [hc] using timeoutFire_errCount { s with rxLast := sampleNow s }
  · simp [Nat.not_le.2 hc]

/-- Settles O40: of the commands only RX_IDLE can move the counter, and it does so exactly at a timeout that finds an
error. -/
theorem errorCounterCountsTimeoutsOnly : Obligations.ErrorCounterCountsTimeoutsOnly := by
  constructor
  · intro s t h hne
    obtain ⟨-, ⟨-, rfl⟩ | ⟨c, rest, hs, ⟨e, -, rfl⟩ | ⟨i, hi, hx⟩⟩⟩ := step_next h
    · exact absurd rfl hne
    · exact absurd rfl hne
    · by_cases hidle : i = .rxIdle
      · subst hidle
        have hcount := execRxIdle_errCount hx
        split at hcount
        · next hfire => exact ⟨hcount, c, rest, hs, hi, hfire⟩
        · exact absurd hcount hne
      · exact absurd (exec_keeps_errCount hidle hx) hne
  · intro s t c rest h hs hi hdl hph
    obtain ⟨-, ⟨hn, -⟩ | ⟨c', rest', hs', hrun⟩⟩ := step_next h
    · simp [hs] at hn
    · obtain ⟨rfl, rfl⟩ := List.cons.inj (hs.symm.trans hs')
      obtain ⟨e, he, -⟩ | ⟨i, hi', hx⟩ := hrun
      · simp [hi] at he
      · obtain rfl := Except.ok.inj (hi.symm.trans hi')
        exact (execRxIdle_errCount hx).trans (if_pos ⟨hdl, hph⟩)

/-! ## RX_BYTE -/

/-- Settles O28: a byte that is refused or dropped writes at most the deadline, the sample time, the phase and the
cause; a byte that is stored writes `rx_buf` at `rx_index`, and what the phase function writes. -/
theorem rxByteFrame : Obligations.RxByteFrame := by
  intro s t b h
  obtain ⟨-, ⟨-, rfl⟩ | ⟨-, -, rfl⟩ | ⟨-, -, rfl⟩⟩ := execRxByte_next h
  · simp [State.rxByte, State.txByte]
  · simp +contextual [State.rxByte, State.txByte, enterError_rxErrCause]
  · obtain ⟨hcfg, -, -, -, -, herr, hrx, htx, hsrc, hcur, hrem, hlast, hseq, hacc, hcmd, hnow⟩ :=
      rxStep_keeps b s.rxIndex (takeByte b (loadDeadline s))
    obtain ⟨hrrq, hid, hlen, hlid, hcause⟩ := rxStep_writes b s.rxIndex (takeByte b (loadDeadline s))
    refine ⟨hcfg, fun k => congrArg (Memory.read .tx · k) htx, hsrc, hcur, hrem, hlast, hseq, hacc, herr, hcmd, hnow,
      hrrq, hid, hlen, hlid, hcause, fun k hk => ?_⟩
    simp only [State.rxByte, hrx]
    exact Memory.read_set_ne _ _ _ hk

/-! ## The accumulator -/

/-- The state with `x` in the accumulator. -/
def withAcc (x : Crc) (s : State) : State := { s with crcAcc := x }

/-- The outcome with `x` in the accumulator of its next state. -/
def accAfter (x : Crc) (r : Result) : Result := andThen r fun t => .next (withAcc x t)

theorem accAfter_finish (x : Crc) (st : Status) (s : State) : accAfter x (finish st s) = finish st (withAcc x s) := rfl

theorem accAfter_configured (x : Crc) (s : State) (r : Result) :
    accAfter x (configured s r) = configured (withAcc x s) (accAfter x r) :=
  apply_ite ..

theorem accAfter_withinBuffer (x : Crc) (s : State) (sp : Space) (n : Nat) (r : Result) :
    accAfter x (withinBuffer s sp n r) = withinBuffer (withAcc x s) sp n (accAfter x r) :=
  apply_ite ..

theorem withAcc_enterError (x : Crc) (c : ErrCause) (s : State) :
    withAcc x (enterError c s) = enterError c (withAcc x s) :=
  apply_ite ..

theorem withAcc_armCtrl (x : Crc) (s : State) : withAcc x (armCtrl s) = armCtrl (withAcc x s) :=
  apply_ite ..

theorem withAcc_armResend (x : Crc) (s : State) : withAcc x (armResend s) = armResend (withAcc x s) :=
  apply_ite ..

theorem withAcc_abandonPartial (x : Crc) (s : State) : withAcc x (abandonPartial s) = abandonPartial (withAcc x s) := by
  simp only [abandonPartial, apply_ite (withAcc x), withAcc_enterError]
  rfl

theorem withAcc_resolvePhase (x : Crc) (s : State) : withAcc x (resolvePhase s) = resolvePhase (withAcc x s) := by
  simp only [resolvePhase, apply_ite (withAcc x), withAcc_armCtrl, withAcc_armResend]
  rfl

theorem withAcc_timeoutFire (x : Crc) (s : State) : withAcc x (timeoutFire s) = timeoutFire (withAcc x s) := by
  rw [timeoutFire, timeoutFire, ← withAcc_abandonPartial, ← withAcc_resolvePhase]
  rfl

theorem withAcc_rxStep (x : Crc) (b : Byte) (i : Nat) (s : State) :
    withAcc x (rxStep b i s) = rxStep b i (withAcc x s) := by
  have hp : (withAcc x s).rxPhase = s.rxPhase := rfl
  unfold rxStep
  rw [hp]
  cases s.rxPhase
  case sync0 => simp only [stepSync0, apply_ite (withAcc x), withAcc_enterError]; rfl
  case sync1 => simp only [stepSync1, apply_ite (withAcc x), withAcc_enterError]; rfl
  case len => simp only [stepLen, apply_ite (withAcc x), withAcc_enterError]; rfl
  case payload => simp only [stepPayload, apply_ite (withAcc x)]; rfl
  case crchi => simp only [stepCrcHi, apply_ite (withAcc x), withAcc_enterError]; rfl
  case rrq => exact withAcc_enterError ..
  all_goals rfl

/-- A command that is not a CRC command does not see the accumulator (10_state.md R40). -/
theorem exec_withAcc (x : Crc) {i : Instr} (s : State) (hinit : i ≠ .crcInit) (hupd : ∀ b, i ≠ .crcUpdate b) :
    exec i (withAcc x s) = accAfter x (exec i s) := by
  cases i with
  | crcInit => exact absurd rfl hinit
  | crcUpdate b => exact absurd rfl (hupd b)
  | rxByte b =>
    simp only [exec, execRxByte, accAfter_configured, apply_ite (accAfter x), accAfter_withinBuffer, accAfter_finish,
      withAcc_enterError, withAcc_rxStep]
    rfl
  | rxIdle =>
    simp only [exec, execRxIdle, accAfter_configured, apply_ite (accAfter x), accAfter_finish, withAcc_timeoutFire]
    rfl
  | rxRelease =>
    simp only [exec, execRxRelease, accAfter_configured, apply_ite (accAfter x), accAfter_finish]
    rfl
  | txSlotWrite k b =>
    simp only [exec, execTxSlotWrite, accAfter_configured, apply_ite (accAfter x), accAfter_withinBuffer,
      accAfter_finish]
    rfl
  | txSend n =>
    simp only [exec, execTxSend, accAfter_configured, apply_ite (accAfter x), accAfter_withinBuffer, accAfter_finish]
    rfl
  | txAccept =>
    simp only [exec, execTxAccept, accAfter_configured, apply_ite (accAfter x), accAfter_finish]
    rfl

/-- Settles O19: such a command does the same with any value in the accumulator; with the value it has, that says that
the command keeps it. -/
theorem accumulatorIsSeparate : Obligations.AccumulatorIsSeparate := by
  intro i s t hinit hupd h
  have hany : ∀ x, exec i (withAcc x s) = .next (withAcc x t) := fun x => by
    rw [exec_withAcc x s hinit hupd, h]; rfl
  have hsame : t = withAcc s.crcAcc t := Host.Outcome.next.inj (h.symm.trans (hany s.crcAcc))
  have hacc : t.crcAcc = (withAcc s.crcAcc t).crcAcc := congrArg State.crcAcc hsame
  exact ⟨hacc, hany⟩

end Sys2Proof.Machine
end

section
/-!
PROOF. The obligations of spec/10_state.md on the reset state, the reachable states, the registers' widths, the buffers,
the payload port and the top cursor.
-/

namespace Sys2Proof.Machine

/-! ## Reset and the reachable states -/

/-- Settles O49: nothing is written into either buffer at reset, so a read gives the free draw. -/
theorem resetValues : Obligations.ResetValues := by
  refine ⟨?_, Config.c0, by decide, rfl⟩
  rintro c s rfl
  exact ⟨rfl, rfl, rfl, rfl, rfl, rfl, rfl, rfl, rfl, rfl, rfl, rfl, fun _ => rfl, fun _ => rfl, rfl, rfl, rfl, rfl,
    rfl, rfl⟩

theorem inv_resetFor (c : Config) : Inv (State.resetFor c) := by
  have hrx : RxInv (State.resetFor c) := rxInv_rxIdleReset (State.resetFor c)
  refine inv_iff.2 ⟨hrx, ?_, fun _ => ⟨rfl, rfl⟩⟩
  exact ⟨fun h => absurd rfl h, fun h => absurd rfl h, .inl rfl, fun _ => rfl⟩

/-- Settles O50: the receive side at reset is that of the return to idle, and both buffers are empty. -/
theorem resetMeetsTheInvariants : Obligations.ResetMeetsTheInvariants := by
  intro c _
  have hpos : ∀ w, 0 < 2 ^ w := fun w => Nat.two_pow_pos w
  refine ⟨inv_resetFor c, ⟨hpos _, hpos _, hpos _⟩, ?_, rfl, fun h => ?_⟩
  · simp [State.resetFor, BufferInv]
  · cases h

/-- R52 with the clauses that complete it holds of every reachable state. -/
theorem inv_of_reachable {s : State} (h : Reachable s) : Inv s := by
  induction h with
  | atReset c _ => exact inv_resetFor c
  | hostIssues s cs _ ih => exact ih.with_unnamed ..
  | steps s t _ hs ih => exact stepKeepsTheInvariants s t ih hs

/-- Settles O51, from the invariant of every reachable state. -/
theorem reachableStatesSatisfyTheElevenInvariants : Obligations.ReachableStatesSatisfyTheElevenInvariants := by
  intro s h
  have hs := inv_of_reachable h
  exact ⟨hs.index, hs.lengths, hs.resendMode, hs.deadline, hs.drain, hs.ids⟩

/-! ## Widths -/

theorem sampleNow_lt (s : State) : sampleNow s < 2 ^ s.cfg.tickBits := Nat.mod_lt _ (Nat.two_pow_pos _)

/-- A legal budget fits the deadline register (70_reset_and_hazards.md R251). -/
theorem budget_lt {c : Config} (hl : c.legal = true) : c.timeoutBudget < 2 ^ c.tickBits := by
  have hpos := Nat.two_pow_pos c.tickBits
  obtain ⟨-, -, -, -, hle, -⟩ := legal_iff.1 hl
  omega

theorem timeoutFire_errCount_lt {s : State} (h : s.errCount < 2 ^ s.cfg.errBits) :
    (timeoutFire s).errCount < 2 ^ s.cfg.errBits := by
  rw [timeoutFire_errCount]
  split
  · exact Nat.mod_lt _ (Nat.two_pow_pos _)
  · exact h

theorem execRxByte_keeps_widths {b : Byte} {s t : State} (hs : WidthInv s) (h : execRxByte b s = .next t) :
    WidthInv t := by
  have ⟨_, _, hcount⟩ := hs
  obtain ⟨hl, ⟨-, rfl⟩ | ⟨-, -, rfl⟩ | ⟨-, -, rfl⟩⟩ := execRxByte_next h
  · exact hs
  · simpa [WidthInv] using ⟨budget_lt hl, sampleNow_lt s, hcount⟩
  · obtain ⟨hcfg, -, -, hdl, hlast, herr, -⟩ := rxStep_keeps b s.rxIndex (takeByte b (loadDeadline s))
    simpa [WidthInv, hcfg, hdl, hlast, herr] using ⟨budget_lt hl, sampleNow_lt s, hcount⟩

theorem execRxIdle_keeps_widths {s t : State} (hs : WidthInv s) (h : execRxIdle s = .next t) : WidthInv t := by
  obtain ⟨hdl, hlast, hcount⟩ := hs
  obtain ⟨-, ⟨-, rfl⟩ | ⟨-, -, rfl⟩ | ⟨-, -, rfl⟩⟩ := execRxIdle_next h
  · exact ⟨hdl, hlast, hcount⟩
  · obtain ⟨hcfg, -, -, hl, -, -, -, -, -, -, -, hd, -⟩ := timeoutFire_keeps { s with rxLast := sampleNow s }
    refine ⟨?_, ?_, ?_⟩ <;> dsimp only <;> rw [hcfg]
    · rw [hd]; exact Nat.two_pow_pos _
    · rw [hl]; exact sampleNow_lt s
    · exact timeoutFire_errCount_lt (s := { s with rxLast := sampleNow s }) hcount
  · exact ⟨(Nat.sub_le _ _).trans_lt hdl, sampleNow_lt s, hcount⟩

theorem exec_keeps_widths {i : Instr} {s t : State} (hs : WidthInv s) (h : exec i s = .next t) : WidthInv t := by
  cases i with
  | crcInit => obtain ⟨-, rfl⟩ := execCrcInit_next h; exact hs
  | crcUpdate b => obtain ⟨-, rfl⟩ := execCrcUpdate_next h; exact hs
  | rxByte b => exact execRxByte_keeps_widths hs h
  | rxIdle => exact execRxIdle_keeps_widths hs h
  | rxRelease =>
    obtain ⟨-, ⟨-, rfl⟩ | ⟨-, rfl⟩⟩ := execRxRelease_next h
    · exact ⟨Nat.two_pow_pos _, hs.2⟩
    · exact hs
  | txSlotWrite k b => obtain ⟨-, ⟨-, rfl⟩ | ⟨-, -, -, rfl⟩⟩ := execTxSlotWrite_next h <;> exact hs
  | txSend n => obtain ⟨-, ⟨-, rfl⟩ | ⟨-, -, rfl⟩⟩ := execTxSend_next h <;> exact hs
  | txAccept => obtain ⟨-, ⟨-, rfl⟩ | ⟨-, -, rfl⟩⟩ := execTxAccept_next h <;> exact hs

/-! ## Buffers -/

theorem buildFrame_wf {m : Memory} (h : Memory.wf m) (id : Byte) (n : Nat) : Memory.wf (buildFrame id n m) :=
  Memory.setMany_wf (Memory.setMany_wf h _ _) _ _

theorem buildFrame_within {cap n : Nat} {m : Memory} (h : Memory.within cap m) (hn : n + 6 ≤ cap) (id : Byte) :
    Memory.within cap (buildFrame id n m) := by
  refine Memory.setMany_within (Memory.setMany_within h ?_) ?_
  · rw [length_frameHeader]; omega
  · rw [length_checkBytes, payloadOffset]; omega

theorem exec_keeps_buffers {i : Instr} {s t : State} (hs : BufferInv s) (h : exec i s = .next t) : BufferInv t := by
  have ⟨hrwf, hrin, htwf, htin⟩ := hs
  cases i with
  | crcInit => obtain ⟨-, rfl⟩ := execCrcInit_next h; exact hs
  | crcUpdate b => obtain ⟨-, rfl⟩ := execCrcUpdate_next h; exact hs
  | rxByte b =>
    obtain ⟨-, ⟨-, rfl⟩ | ⟨-, -, rfl⟩ | ⟨-, hc, rfl⟩⟩ := execRxByte_next h
    · exact hs
    · simpa [BufferInv] using hs
    · obtain ⟨hcfg, -, -, -, -, -, hrx, htx, -⟩ := rxStep_keeps b s.rxIndex (takeByte b (loadDeadline s))
      simp only [BufferInv, hcfg, hrx, htx]
      exact ⟨Memory.set_wf hrwf _ _, Memory.set_within hrin hc _, htwf, htin⟩
  | rxIdle =>
    obtain ⟨-, ⟨-, rfl⟩ | ⟨-, -, rfl⟩ | ⟨-, -, rfl⟩⟩ := execRxIdle_next h
    · exact hs
    · obtain ⟨hcfg, hrx, htx, -⟩ := timeoutFire_keeps { s with rxLast := sampleNow s }
      simpa only [BufferInv, hcfg, hrx, htx] using hs
    · exact hs
  | rxRelease => obtain ⟨-, ⟨-, rfl⟩ | ⟨-, rfl⟩⟩ := execRxRelease_next h <;> exact hs
  | txSlotWrite k b =>
    obtain ⟨-, ⟨-, rfl⟩ | ⟨-, -, hk, rfl⟩⟩ := execTxSlotWrite_next h
    · exact hs
    · exact ⟨hrwf, hrin, Memory.set_wf htwf _ _, Memory.set_within htin hk _⟩
  | txSend n =>
    obtain ⟨-, ⟨-, rfl⟩ | ⟨-, hn, rfl⟩⟩ := execTxSend_next h
    · exact hs
    · obtain ⟨-, -, hcap⟩ := sendable_iff.1 hn
      exact ⟨hrwf, hrin, buildFrame_wf htwf _ _, buildFrame_within htin hcap _⟩
  | txAccept => obtain ⟨-, ⟨-, rfl⟩ | ⟨-, -, rfl⟩⟩ := execTxAccept_next h <;> exact hs

/-- Settles O53: every command keeps both, and the host's stream is in neither. -/
theorem stepKeepsWidthsAndBuffers : Obligations.StepKeepsWidthsAndBuffers :=
  ⟨fun _ _ => step_preserves (fun _ _ _ _ hu => hu) fun _ _ _ => exec_keeps_widths,
    fun _ _ => step_preserves (fun _ _ _ _ hu => hu) fun _ _ _ => exec_keeps_buffers⟩

/-! ## The payload port and the top cursor -/

/-- Settles O55: in `DONE` the invariants put the payload inside the receive buffer, so the port shows that range. -/
theorem payloadPortShowsThePayload : Obligations.PayloadPortShowsThePayload := by
  intro s hs
  refine ⟨fun hd => ?_, fun hd => if_pos hd⟩
  obtain ⟨-, -, -, hdone, -⟩ := hs.lengths
  obtain ⟨-, -, hcap⟩ := hdone hd
  refine ⟨Memory.readRange .rx s.rxBuf payloadOffset s.rxPlen.toNat, ?_, Memory.length_readRange ..,
    fun j hj => Memory.readRange_getElem? .rx s.rxBuf hj⟩
  rw [rxPayload, if_neg (not_not.2 hd), if_pos (by rw [payloadOffset]; omega)]

/-- When TX_ACCEPT stops by name (log 10). -/
theorem execTxAccept_unreachable_iff {s : State} :
    execTxAccept s = .refused .unreachableState ↔ s.cfg.legal = true ∧ s.txRemaining ≠ 0 ∧ s.txCursor = 511 := by
  cases hl : s.cfg.legal
  · simp [execTxAccept, configured_illegal hl]
  · rw [execTxAccept, configured_legal hl]
    split_ifs <;> simp_all [finish]

/-- With a byte on offer the cursor is inside its source, at most 262 bytes long (R52 items 8 and 9). -/
theorem DrainInv.cursor_lt {s : State} (h : DrainInv s) (hr : s.txRemaining ≠ 0) : s.txCursor.toNat < 262 := by
  obtain ⟨hctrl, hframe, -⟩ := h
  have hpos : 0 < s.txRemaining.toNat := by bv_omega
  cases hsrc : s.txSrc
  case frame => have := hframe hr hsrc; omega
  case ctrl => have := hctrl hr hsrc; omega

/-- Settles O45: the three conditions are TX_ACCEPT's checks in order, and the invariants keep the cursor below 262. -/
theorem txAcceptStopsOnlyAtTheTopCursor : Obligations.TxAcceptStopsOnlyAtTheTopCursor := by
  refine ⟨fun s => execTxAccept_unreachable_iff, fun s hs h => ?_⟩
  obtain ⟨-, hr, hc⟩ := execTxAccept_unreachable_iff.1 h
  have hlt := hs.drain.cursor_lt hr
  simp [hc] at hlt

end Sys2Proof.Machine
end

section
/-!
PROOF. The obligation of spec/20_memory.md: a command accesses a buffer only after a check of its own that puts the
index inside it.
-/

namespace Sys2Proof.Machine

/-! ## A shared operation adds no fault -/

theorem finish_ne_fault (st : Status) (s : State) (f : Fault) : finish st s ≠ .fault f := nofun

theorem configured_ne_fault {r : Result} {f : Fault} (h : r ≠ .fault f) (s : State) : configured s r ≠ .fault f :=
  fun hf => h (configured_fault.1 hf).2

theorem withinBuffer_ne_fault {s : State} {sp : Space} {n : Nat} {r : Result} {f : Fault} (hn : n ≤ capacity s.cfg sp)
    (h : r ≠ .fault f) : withinBuffer s sp n r ≠ .fault f := by
  rwa [withinBuffer_of_le hn]

/-! ## The checks bound every access (20_memory.md R61) -/

/-- A byte of the write slot lies inside the transmit buffer, and two bytes for the check follow it. -/
theorem slotAddress_add_two_lt_txCap {c : Config} {i : Len} (h : i.toNat < slotSize c) : slotAddress i + 2 < c.txCap := by
  simp only [slotSize, overhead, lt_min_iff] at h
  simp only [slotAddress, payloadOffset]
  omega

theorem execRxByte_ne_fault (b : Byte) (s : State) (f : Fault) : execRxByte b s ≠ .fault f := by
  refine configured_ne_fault ?_ s
  split_ifs with hd hc
  · exact finish_ne_fault _ _ f
  · exact finish_ne_fault _ _ f
  · exact withinBuffer_ne_fault (not_le.1 hc) (finish_ne_fault _ _ f)

theorem execTxSlotWrite_ne_fault (i : Len) (b : Byte) (s : State) (f : Fault) : execTxSlotWrite i b s ≠ .fault f := by
  refine configured_ne_fault ?_ s
  split_ifs with hr
  · exact finish_ne_fault _ _ f
  · have hi : i.toNat < slotSize s.cfg := not_le.1 (not_or.1 hr).2
    have hroom : slotAddress i + 1 ≤ capacity s.cfg .tx := by
      have := slotAddress_add_two_lt_txCap hi
      rw [capacity]
      omega
    exact withinBuffer_ne_fault hroom (finish_ne_fault _ _ f)

theorem execTxSend_ne_fault (n : Len) (s : State) (f : Fault) : execTxSend n s ≠ .fault f := by
  refine configured_ne_fault ?_ s
  split_ifs with hr
  · exact finish_ne_fault _ _ f
  · obtain ⟨-, -, hroom⟩ := sendable_iff.1 (eq_true_of_ne_false (not_or.1 hr).2)
    exact withinBuffer_ne_fault hroom (finish_ne_fault _ _ f)

/-! ## Commands and steps -/

/-- Only the three commands above access a buffer; the others just finish or are refused. -/
theorem exec_ne_fault (i : Instr) (s : State) (f : Fault) : exec i s ≠ .fault f := by
  cases i with
  | crcInit => exact configured_ne_fault (finish_ne_fault _ _ f) s
  | crcUpdate b => exact configured_ne_fault (finish_ne_fault _ _ f) s
  | rxByte b => exact execRxByte_ne_fault b s f
  | rxIdle =>
    refine configured_ne_fault ?_ s
    dsimp only
    split_ifs <;> exact finish_ne_fault _ _ f
  | rxRelease =>
    refine configured_ne_fault ?_ s
    split_ifs <;> exact finish_ne_fault _ _ f
  | txSlotWrite k b => exact execTxSlotWrite_ne_fault k b s f
  | txSend n => exact execTxSend_ne_fault n s f
  | txAccept =>
    refine configured_ne_fault ?_ s
    split_ifs
    · exact finish_ne_fault _ _ f
    · exact nofun
    · exact finish_ne_fault _ _ f

theorem runWord_ne_fault (w : Word) (s : State) (f : Fault) : runWord w s ≠ .fault f := by
  unfold runWord
  split
  · exact exec_ne_fault _ s f
  · exact finish_ne_fault _ s f

theorem step_ne_fault (s : State) (f : Fault) : step s ≠ .fault f := by
  refine configured_ne_fault ?_ s
  split
  · exact nofun
  · exact runWord_ne_fault _ _ f

/-- Settles O11: every access stands behind a check of its command that bounds the index (`execRxByte_ne_fault`,
`execTxSlotWrite_ne_fault`, `execTxSend_ne_fault`), and a step does no more than run one command. -/
theorem noStepFaults : Obligations.NoStepFaults := ⟨step_ne_fault, exec_ne_fault⟩

end Sys2Proof.Machine
end

section
/-!
PROOF. The obligations of spec/30_encoding.md on words: decoder and encoder, the rows of the opcode map, and where the
operands stand.
-/

namespace Sys2Proof

/-! ## Decoder and encoder -/

/-- A word with both reserved fields 0 passes the checks of R93 when each operand that the opcode has not is 0. -/
theorem checkFields_wordOf {op : BitVec 4} {arg : Len} {data : Byte} {a d : Bool} (i : Instr)
    (ha : a = false → arg = 0) (hd : d = false → data = 0) : checkFields (wordOf op arg data) a d i = .ok i :=
  checkFields_ok.2 ⟨rfl, rsv1Field_wordOf .., rsv0Field_wordOf .., by simpa using ha, by simpa using hd⟩

/-- Each opcode leads the decoder to its own case, whose checks pass. -/
theorem decode_encode (i : Instr) : decode (encode i) = .ok i := by
  cases i <;> simp [encode, decode, checkFields_wordOf]

/-- A word that passes the checks of R93 is put together from its opcode and the operands the opcode has. -/
theorem eq_wordOf_of_checkFields_ok {w : Word} {op : BitVec 4} {a d : Bool} {i j : Instr} (hop : opField w = op)
    (h : checkFields w a d i = .ok j) :
    i = j ∧ wordOf op (if a then argField w else 0) (if d then dataField w else 0) = w := by
  obtain ⟨rfl, h1, h0, ha, hd⟩ := checkFields_ok.1 h
  have harg : (if a then argField w else 0) = argField w := by cases a <;> simp [ha]
  have hdata : (if d then dataField w else 0) = dataField w := by cases d <;> simp [hd]
  exact ⟨rfl, by rw [harg, hdata, ← hop, wordOf_fields h1 h0]⟩

/-- In every case of the decoder the opcode and the operands it reads determine the word. -/
theorem encode_of_decode_ok {w : Word} {i : Instr} (h : decode w = .ok i) : encode i = w := by
  unfold decode at h
  split_ifs at h with hop hop hop hop hop hop hop hop <;>
    (obtain ⟨rfl, hw⟩ := eq_wordOf_of_checkFields_ok hop h; exact hw)

/-- Settles O1: the fields of a word put together read back, and a word that passes the checks is put together from its
fields. -/
theorem decodeAndEncodeAgree : Obligations.DecodeAndEncodeAgree :=
  ⟨decode_encode, fun _ _ => encode_of_decode_ok⟩

/-! ## The rows of the opcode map (R89) -/

/-- A word matches a row when each of its fields matches the row's. -/
theorem OpcodeRow.fields_of_matches {r : OpcodeRow} {w : Word} (h : r.matches w) :
    opField w &&& opField r.mask = opField r.pattern ∧ rsv1Field w &&& rsv1Field r.mask = rsv1Field r.pattern
      ∧ argField w &&& argField r.mask = argField r.pattern ∧ rsv0Field w &&& rsv0Field r.mask = rsv0Field r.pattern
      ∧ dataField w &&& dataField r.mask = dataField r.pattern := by
  simp only [opField, rsv1Field, argField, rsv0Field, dataField, ← BitVec.extractLsb'_and, h, and_self]

/-- Every mask covers the opcode and both reserved fields, which every pattern has 0. -/
theorem opcodeRows_fixed_fields : ∀ r ∈ opcodeRows,
    opField r.mask = BitVec.allOnes 4 ∧ rsv1Field r.mask = BitVec.allOnes 3 ∧ rsv0Field r.mask = BitVec.allOnes 8
      ∧ rsv1Field r.pattern = 0 ∧ rsv0Field r.pattern = 0 := by decide

/-- A word that matches a row has the row's opcode, and its reserved fields are 0. -/
theorem fixed_fields_of_matches {r : OpcodeRow} {w : Word} (hr : r ∈ opcodeRows) (h : r.matches w) :
    opField w = opField r.pattern ∧ rsv1Field w = 0 ∧ rsv0Field w = 0 := by
  obtain ⟨hop, hrsv1, -, hrsv0, -⟩ := r.fields_of_matches h
  obtain ⟨mop, mrsv1, mrsv0, prsv1, prsv0⟩ := opcodeRows_fixed_fields r hr
  rw [mop, BitVec.and_allOnes] at hop
  rw [mrsv1, BitVec.and_allOnes, prsv1] at hrsv1
  rw [mrsv0, BitVec.and_allOnes, prsv0] at hrsv0
  exact ⟨hop, hrsv1, hrsv0⟩

/-- No two rows have the same opcode. -/
theorem opcodeRows_opField_injective :
    ∀ r ∈ opcodeRows, ∀ r' ∈ opcodeRows, opField r.pattern = opField r'.pattern → r = r' := by decide

theorem row_unique_of_matches {r r' : OpcodeRow} {w : Word} (hr : r ∈ opcodeRows) (hr' : r' ∈ opcodeRows)
    (h : r.matches w) (h' : r'.matches w) : r = r' :=
  opcodeRows_opField_injective r hr r' hr' <|
    (fixed_fields_of_matches hr h).1.symm.trans (fixed_fields_of_matches hr' h').1

/-- Every instruction's word matches a row with its mnemonic. -/
theorem encode_matches_row (i : Instr) : Laws.OpcodeRow.Statement i := by
  cases i with
  | crcInit => exact Laws.OpcodeRow.crcInit
  | crcUpdate b => exact Laws.OpcodeRow.crcUpdate b
  | rxByte b => exact Laws.OpcodeRow.rxByte b
  | rxIdle => exact Laws.OpcodeRow.rxIdle
  | rxRelease => exact Laws.OpcodeRow.rxRelease
  | txSlotWrite k b => exact Laws.OpcodeRow.txSlotWrite k b
  | txSend n => exact Laws.OpcodeRow.txSend n
  | txAccept => exact Laws.OpcodeRow.txAccept

/-- Settles O3: a decoded word is its command's encoding, which matches that command's row, and the opcode tells the
rows apart. -/
theorem decodedWordMatchesOneRow : Obligations.DecodedWordMatchesOneRow := by
  intro w i hw
  obtain ⟨r, hr, hname, hmatch⟩ := encode_matches_row i
  rw [encode_of_decode_ok hw] at hmatch
  exact ⟨r, hr, hname, hmatch, fun r' hr' h' => row_unique_of_matches hr' hr h' hmatch⟩

/-- A word that matches a row is a command's word: its opcode is the row's, its reserved fields are 0, and each operand
is either free or fixed to 0 by the mask. -/
theorem exists_encode_of_matches {r : OpcodeRow} {w : Word} (hr : r ∈ opcodeRows) (h : r.matches w) :
    ∃ i, encode i = w := by
  obtain ⟨hop, hrsv1, hrsv0⟩ := fixed_fields_of_matches hr h
  obtain ⟨-, -, harg, -, hdata⟩ := r.fields_of_matches h
  rw [← wordOf_fields hrsv1 hrsv0, hop]
  have no_arg (hm : argField r.mask = BitVec.allOnes 9) (hp : argField r.pattern = 0) : argField w = 0 := by
    rwa [hm, BitVec.and_allOnes, hp] at harg
  have no_data (hm : dataField r.mask = BitVec.allOnes 8) (hp : dataField r.pattern = 0) : dataField w = 0 := by
    rwa [hm, BitVec.and_allOnes, hp] at hdata
  simp only [opcodeRows, List.mem_cons, List.not_mem_nil, or_false] at hr
  obtain rfl | rfl | rfl | rfl | rfl | rfl | rfl | rfl := hr
  · exact ⟨.crcInit, by rw [no_arg rfl rfl, no_data rfl rfl]; rfl⟩
  · exact ⟨.crcUpdate (dataField w), by rw [no_arg rfl rfl]; rfl⟩
  · exact ⟨.rxByte (dataField w), by rw [no_arg rfl rfl]; rfl⟩
  · exact ⟨.rxIdle, by rw [no_arg rfl rfl, no_data rfl rfl]; rfl⟩
  · exact ⟨.rxRelease, by rw [no_arg rfl rfl, no_data rfl rfl]; rfl⟩
  · exact ⟨.txSlotWrite (argField w) (dataField w), rfl⟩
  · exact ⟨.txSend (argField w), by rw [no_data rfl rfl]; rfl⟩
  · exact ⟨.txAccept, by rw [no_arg rfl rfl, no_data rfl rfl]; rfl⟩

/-- A word decodes exactly when it matches a row (R90). -/
theorem decode_ok_iff_matches {w : Word} : (∃ i, decode w = .ok i) ↔ ∃ r ∈ opcodeRows, r.matches w := by
  constructor
  · rintro ⟨i, hi⟩
    obtain ⟨r, hr, -, hmatch, -⟩ := decodedWordMatchesOneRow w i hi
    exact ⟨r, hr, hmatch⟩
  · rintro ⟨r, hr, hmatch⟩
    obtain ⟨i, rfl⟩ := exists_encode_of_matches hr hmatch
    exact ⟨i, decode_encode i⟩

theorem decode_error_iff {w : Word} : (∃ e, decode w = .error e) ↔ ¬∃ i, decode w = .ok i := by
  cases decode w <;> simp

/-! ## Where the operands stand (R88) -/

theorem toNat_append_eq {n m : Nat} (x : BitVec n) (y : BitVec m) : (x ++ y).toNat = x.toNat * 2 ^ m + y.toNat := by
  rw [BitVec.toNat_append, ← Nat.shiftLeft_add_eq_or_of_lt y.isLt, Nat.shiftLeft_eq]

/-- The fields' places as powers of two. -/
theorem toNat_wordOf (op : BitVec 4) (arg : Len) (data : Byte) :
    (wordOf op arg data).toNat = op.toNat * 2 ^ 28 + arg.toNat * 2 ^ 16 + data.toNat := by
  simp only [wordOf, toNat_append_eq, BitVec.toNat_zero]
  omega

theorem ofNat_eq_wordOf {n : Nat} (op : BitVec 4) {i b : Nat} (hi : i < 512) (hb : b < 256)
    (hn : n = op.toNat * 2 ^ 28 + i * 2 ^ 16 + b) :
    BitVec.ofNat 32 n = wordOf op (BitVec.ofNat 9 i) (BitVec.ofNat 8 b) := by
  apply BitVec.eq_of_toNat_eq
  rw [toNat_wordOf, BitVec.toNat_ofNat, BitVec.toNat_ofNat, BitVec.toNat_ofNat, Nat.mod_eq_of_lt hi,
    Nat.mod_eq_of_lt hb, Nat.mod_eq_of_lt (by omega), hn]

/-- Settles O5: each number is the word of the command with those operands. -/
theorem operandsStandInTheirFields : Obligations.OperandsStandInTheirFields := by
  intro i b hi hb
  have decodes (j : Instr) {n : Nat} (hw : BitVec.ofNat 32 n = encode j) : decode (BitVec.ofNat 32 n) = .ok j :=
    hw ▸ decode_encode j
  have hi0 : 0 < 512 := by decide
  have hb0 : 0 < 256 := by decide
  exact ⟨decodes _ (ofNat_eq_wordOf 6 hi hb rfl), decodes _ (ofNat_eq_wordOf 7 hi hb0 rfl),
    decodes _ (ofNat_eq_wordOf 2 hi0 hb (by simp)), decodes _ (ofNat_eq_wordOf 3 hi0 hb (by simp))⟩

/-- Settles O4: the six words are their commands' encodings; the two others have opcode 0 and a bit of `ARG` set that
RX_BYTE has not. -/
theorem specExampleWordsDecode : Obligations.SpecExampleWordsDecode :=
  ⟨decode_encode (.rxByte 0x41), decode_encode (.txSlotWrite 1 0x42), decode_encode (.txSend 2),
    decode_encode (.txSend 256), decode_encode .txAccept, decode_encode (.crcUpdate 0xFF), ⟨.opcode, by decide⟩,
    ⟨.arg, by decide⟩⟩

end Sys2Proof
end

section
/-!
PROOF. The obligations of spec/30_encoding.md on the statuses: an illegal word and a refused command change nothing
(R90, R95).
-/

namespace Sys2Proof.Machine

theorem runWord_of_decode_error {w : Word} {e : Illegal} (h : decode w = .error e) (s : State) :
    runWord w s = finish .illegal s := by
  simp only [runWord, h]

/-- Settles O2: the decoder rejects exactly the words without a row, and a step that takes one only ends with
`ILLEGAL`. -/
theorem illegalWordChangesNothing : Obligations.IllegalWordChangesNothing := by
  refine fun w => ⟨?_, ?_⟩
  · rw [decode_error_iff, decode_ok_iff_matches]
    simp only [not_exists, not_and, OpcodeRow.matches, ne_eq]
  · rintro s t rest hl hs ⟨e, he⟩
    rw [step_of_commands_cons hl hs, runWord_of_decode_error he]
    rfl

/-- A command ends with `OK`, or it is refused with `BUSY` or `UNAVAILABLE` and changes nothing else (R95). -/
theorem exec_ok_or_refused {i : Instr} {s t : State} (h : exec i s = .next t) :
    t.status = .ok ∨ ∃ st, (st = .busy ∨ st = .unavailable) ∧ t = { s with status := st } := by
  cases i with
  | crcInit => obtain ⟨-, rfl⟩ := execCrcInit_next h; exact .inl rfl
  | crcUpdate b => obtain ⟨-, rfl⟩ := execCrcUpdate_next h; exact .inl rfl
  | rxByte b =>
    obtain ⟨-, ⟨-, rfl⟩ | ⟨-, -, rfl⟩ | ⟨-, -, rfl⟩⟩ := execRxByte_next h
    · exact .inr ⟨_, .inl rfl, rfl⟩
    · exact .inl rfl
    · exact .inl rfl
  | rxIdle =>
    obtain ⟨-, ⟨-, rfl⟩ | ⟨-, -, rfl⟩ | ⟨-, -, rfl⟩⟩ := execRxIdle_next h
    · exact .inr ⟨_, .inl rfl, rfl⟩
    · exact .inl rfl
    · exact .inl rfl
  | rxRelease =>
    obtain ⟨-, ⟨-, rfl⟩ | ⟨-, rfl⟩⟩ := execRxRelease_next h
    · exact .inl rfl
    · exact .inr ⟨_, .inr rfl, rfl⟩
  | txSlotWrite k b =>
    obtain ⟨-, ⟨-, rfl⟩ | ⟨-, -, -, rfl⟩⟩ := execTxSlotWrite_next h
    · exact .inr ⟨_, .inr rfl, rfl⟩
    · exact .inl rfl
  | txSend n =>
    obtain ⟨-, ⟨-, rfl⟩ | ⟨-, -, rfl⟩⟩ := execTxSend_next h
    · exact .inr ⟨_, .inl rfl, rfl⟩
    · exact .inl rfl
  | txAccept =>
    obtain ⟨-, ⟨-, rfl⟩ | ⟨-, -, rfl⟩⟩ := execTxAccept_next h
    · exact .inr ⟨_, .inr rfl, rfl⟩
    · exact .inl rfl

theorem exec_refused_eq {i : Instr} {s t : State} (h : exec i s = .next t) (hst : t.status ≠ .ok) :
    t = { s with status := t.status } := by
  obtain hok | ⟨st, -, rfl⟩ := exec_ok_or_refused h
  · exact absurd hok hst
  · rfl

theorem exec_status_ne_illegal {i : Instr} {s t : State} (h : exec i s = .next t) : t.status ≠ .illegal := by
  obtain hok | ⟨st, rfl | rfl, rfl⟩ := exec_ok_or_refused h
  · simp [hok]
  · nofun
  · nofun

/-- Settles O10: a command that is refused changes its status only, and before it a step has only taken the word from
the stream. -/
theorem refusedCommandsChangeNothing : Obligations.RefusedCommandsChangeNothing := by
  refine ⟨⟨rfl, rfl, rfl, rfl⟩, fun _ _ _ => exec_refused_eq, fun _ _ _ => exec_status_ne_illegal, ?_⟩
  intro s t c rest hs h hst
  obtain ⟨-, ⟨hnil, -⟩ | ⟨c', rest', hcons, hrun⟩⟩ := step_next h
  · simp [hs] at hnil
  · obtain ⟨rfl, rfl⟩ := List.cons.inj (hs.symm.trans hcons)
    obtain ⟨e, -, rfl⟩ | ⟨i, -, hx⟩ := hrun
    · rfl
    · exact exec_refused_eq hx hst

end Sys2Proof.Machine
end

section
/-!
PROOF. A payload from one block to another (spec/30_encoding.md R84): the CRC residue, the frame that TX_SEND builds,
its bytes handed over, and a receiver that takes them.
-/

namespace Sys2Proof.Machine

/-! ## The CRC residue (41_crc.md R113) -/

/-- A byte equal to the low half of the state meets the table's entry 0, so the state is only shifted. -/
theorem crcUpdate_of_low {c : Crc} {b : Byte} (h : c.setWidth 8 = b) : crcUpdate c b = c >>> 8 := by
  have hidx : (c ^^^ b.setWidth 16).setWidth 8 = 0 := by
    rw [BitVec.setWidth_xor, BitVec.setWidth_setWidth_of_le b (by omega), BitVec.setWidth_eq, h, BitVec.xor_self]
    rfl
  rw [crcUpdate, hidx, crcTable_zero]
  exact BitVec.xor_zero

/-- The check bytes of a state bring it to 0. -/
theorem crcFold_low_high (c : Crc) : crcFold c [crcLow c, crcHigh c] = 0 := by
  have hlow : c.setWidth 8 = crcLow c := by simp [crcLow, BitVec.setWidth_eq_extractLsb']
  have hhigh : (c >>> 8).setWidth 8 = crcHigh c := BitVec.eq_of_toNat_eq (by simp [crcHigh])
  rw [crcFold_cons, crcFold_cons, crcFold_nil, crcUpdate_of_low hlow, crcUpdate_of_low hhigh]
  bv_omega

theorem crcFold_wireFrame (id : Byte) (p : List Byte) : crcFold crcInitValue (wireFrame id p) = 0 := by
  rw [wireFrame, crcFold_append, checkBytes, crcFold_low_high]

/-! ## The frame that TX_SEND builds (43_tx.md R166, R167) -/

/-- A range whose first bytes have just been written. -/
theorem readRange_setMany_left (sp : Space) (m : Memory) (k n : Nat) (vs : List Byte) :
    Memory.readRange sp (Memory.setMany m k vs) k (vs.length + n)
      = vs ++ Memory.readRange sp m (k + vs.length) n := by
  rw [Memory.readRange_append, Memory.readRange_setMany,
    Memory.readRange_congr sp fun j hj _ => Memory.read_setMany_outside sp m vs (.inr hj)]

/-- A range whose last bytes have just been written. -/
theorem readRange_setMany_right (sp : Space) (m : Memory) (k n : Nat) (vs : List Byte) :
    Memory.readRange sp (Memory.setMany m (k + n) vs) k (n + vs.length) = Memory.readRange sp m k n ++ vs := by
  rw [Memory.readRange_append, Memory.readRange_setMany,
    Memory.readRange_congr sp fun j _ hj => Memory.read_setMany_outside sp m vs (.inl hj)]

/-- The assembled frame reads as the wire frame of the slot's payload. -/
theorem readRange_buildFrame (id : Byte) (n : Nat) (m : Memory) :
    Memory.readRange .tx (buildFrame id n m) 0 (n + 6) = wireFrame id (Memory.readRange .tx m 4 n) := by
  have covered : Memory.readRange .tx (Memory.setMany m 0 (frameHeader id n)) 0 (payloadOffset + n)
      = frameHeader id n ++ Memory.readRange .tx m 4 n := readRange_setMany_left .tx m 0 n (frameHeader id n)
  have whole := readRange_setMany_right .tx (Memory.setMany m 0 (frameHeader id n)) 0 (payloadOffset + n)
    (checkBytes (frameHeader id n ++ Memory.readRange .tx m 4 n))
  rw [length_checkBytes, Nat.zero_add, covered] at whole
  rw [wireFrame, Memory.length_readRange, ← whole, buildFrame, covered, payloadOffset]
  congr 1
  omega

/-! ## Handing over (43_tx.md R172, R173) -/

/-- With bytes of the frame to send inside the buffer, TX_ACCEPTs hand them over in order and change the cursor, the
count and the status only. -/
theorem handOver_frame {s : State} {k : Nat} (hl : s.cfg.legal = true) (hsrc : s.txSrc = .frame)
    (hcap : s.txCursor.toNat + s.txRemaining.toNat ≤ s.cfg.txCap)
    (htop : s.txCursor.toNat + s.txRemaining.toNat ≤ 511) (hk : k ≤ s.txRemaining.toNat) :
    ∃ t : State, handOver k s = .next (Memory.readRange .tx s.txBuf s.txCursor.toNat k, t)
      ∧ t = { s with txCursor := t.txCursor, txRemaining := t.txRemaining, status := t.status }
      ∧ t.txCursor.toNat = s.txCursor.toNat + k ∧ t.txRemaining.toNat + k = s.txRemaining.toNat := by
  induction k generalizing s with
  | zero => exact ⟨s, rfl, rfl, rfl, rfl⟩
  | succ k ih =>
    have hr : s.txRemaining ≠ 0 := by bv_omega
    have hc : s.txCursor ≠ 511 := by bv_omega
    have hcur : (s.txCursor + 1).toNat = s.txCursor.toNat + 1 := by bv_omega
    have hrem : (s.txRemaining - 1).toNat + 1 = s.txRemaining.toNat := by bv_omega
    have hout : txOut s = .ok (some (Memory.read .tx s.txBuf s.txCursor.toNat)) := by
      rw [txOut, if_neg hr, hsrc]
      simp only [txBufPort, if_pos (show s.txCursor.toNat < s.cfg.txCap by omega)]
      rfl
    obtain ⟨t, hrun, ht, htcur, htrem⟩ :=
      ih (s := { s with txCursor := s.txCursor + 1, txRemaining := s.txRemaining - 1, status := .ok }) hl hsrc
        (by dsimp only; omega) (by dsimp only; omega) (by dsimp only; omega)
    refine ⟨t, ?_, ?_, ?_, ?_⟩
    · simp only [handOver, hout, exec, execTxAccept_taken hl hr hc, andThen_of_next, hrun, hcur]
      rfl
    · rw [ht]
    · dsimp only at htcur; omega
    · dsimp only at htrem; omega

/-! ## A receiver that takes a frame (42_rx_parser.md R136 to R146) -/

/-- The phase after `k` bytes of a frame with `n` payload bytes. -/
def framePhase (n : Nat) : Nat → Phase
  | 0 => .sync0
  | 1 => .sync1
  | 2 => .id
  | 3 => .len
  | k + 4 => if k < n then .payload else if k = n then .crclo else if k = n + 1 then .crchi else .done

/-- `s` has taken the first `k` bytes of the frame of `p` with id byte `id`, in normal mode, and has not accepted that
id before. -/
structure FrameTaken (id : Byte) (p : List Byte) (k : Nat) (s : State) : Prop where
  phase : s.rxPhase = framePhase p.length k
  index : s.rxIndex = k
  crc : s.rxCrc = crcFold crcInitValue ((wireFrame id p).take k)
  stored : Memory.readRange .rx s.rxBuf 0 k = (wireFrame id p).take k
  mode : 1 ≤ k → s.rxRrq = false
  frameId : 3 ≤ k → s.rxFrameId = id
  plen : 4 ≤ k → s.rxPlen.toNat = p.length
  fresh : k < p.length + 6 → s.cfg.idEn = true → id ≠ s.rxLastId

theorem framePhase_payload {n k : Nat} (h : k < n) : framePhase n (k + 4) = .payload := if_pos h

theorem framePhase_crclo (n : Nat) : framePhase n (n + 4) = .crclo := by simp [framePhase]

theorem framePhase_crchi (n : Nat) : framePhase n (n + 5) = .crchi := by simp [framePhase]

theorem framePhase_done (n : Nat) : framePhase n (n + 6) = .done := by simp [framePhase]

/-- Which phases a frame passes at which byte. -/
theorem framePhase_eq_iff (n k : Nat) :
    (framePhase n k = .sync0 ↔ k = 0) ∧ (framePhase n k = .id ↔ k = 2) ∧ (framePhase n k = .len ↔ k = 3)
      ∧ (framePhase n k = .done ↔ n + 6 ≤ k) := by
  rcases k with _ | _ | _ | _ | k
  case succ.succ.succ.succ => simp only [framePhase]; split_ifs <;> simp <;> omega
  all_goals simp [framePhase]

/-- The length byte of `n` payload bytes (30_encoding.md R82): the receiver counts on `n + 6` bytes and stores `n`. -/
theorem lengthByte_toNat {n : Nat} (hpos : 1 ≤ n) (hmax : n ≤ 256) :
    (BitVec.ofNat 8 (n - 1)).toNat + 7 = n + 6 ∧ ((BitVec.ofNat 8 (n - 1)).setWidth 9 + 1).toNat = n := by
  simp only [BitVec.toNat_add, BitVec.toNat_setWidth, BitVec.toNat_ofNat, Nat.reducePow,
    show (1 : Len).toNat = 1 from rfl]
  omega

/-- A length byte whose frame fits is accepted (42_rx_parser.md R140). -/
theorem stepLen_of_fits {b : Byte} {s : State} (h : b.toNat + 7 ≤ s.cfg.rxCap) :
    stepLen b s = { s with rxPlen := b.setWidth 9 + 1, rxExpected := b.setWidth 9 + 7, rxPhase := .payload } :=
  if_neg (not_lt.2 h)

/-- A frame with residue 0 and a new id is accepted (R146, R144). -/
theorem stepCrcHi_accepts {s : State} (hcrc : s.rxCrc = 0) (hid : s.cfg.idEn = true → s.rxFrameId ≠ s.rxLastId) :
    stepCrcHi s
      = { s with rxLastId := if s.cfg.idEn then s.rxFrameId else s.rxLastId, rxPhase := .done } := by
  rw [stepCrcHi, if_neg (not_not.2 hcrc), if_neg fun h => hid h.1 h.2]

/-- What the host presents with a command and the status are no part of a frame. -/
theorem FrameTaken.with_unnamed {id : Byte} {p : List Byte} {k : Nat} {s : State} (h : FrameTaken id p k s) (n : Nat)
    (st : Status) : FrameTaken id p k { s with now := n, status := st } :=
  ⟨h.phase, h.index, h.crc, h.stored, h.mode, h.frameId, h.plen, h.fresh⟩

section
variable {id b : Byte} {p : List Byte} {k : Nat} {s : State}

theorem lt_of_wireFrame_getElem? (hb : (wireFrame id p)[k]? = some b) : k < p.length + 6 := by
  simpa using (List.getElem?_eq_some_iff.1 hb).1

theorem FrameTaken.crc_next (h : FrameTaken id p k s) (hb : (wireFrame id p)[k]? = some b) :
    crcUpdate s.rxCrc b = crcFold crcInitValue ((wireFrame id p).take (k + 1)) := by
  rw [List.take_add_one, hb, crcFold_append, ← h.crc]
  rfl

theorem FrameTaken.stored_next (h : FrameTaken id p k s) (hb : (wireFrame id p)[k]? = some b) :
    Memory.readRange .rx (Memory.set s.rxBuf k b) 0 (k + 1) = (wireFrame id p).take (k + 1) := by
  have hset := Memory.readRange_set_succ .rx s.rxBuf 0 k b
  rw [Nat.zero_add] at hset
  rw [hset, h.stored, List.take_add_one, hb]
  rfl

/-- Each byte of a frame that fits takes the phase function one phase on: the first four by their values, the payload
by its count, the last by the CRC residue and the id. (The header's bytes are those the frame computes to, so `hb` names
them as it stands.) -/
theorem FrameTaken.rxStep_phase (h : FrameTaken id p k s) (hb : (wireFrame id p)[k]? = some b)
    (hpos : 1 ≤ p.length) (hmax : p.length ≤ 256) (hcap : p.length + 6 ≤ s.cfg.rxCap) :
    (rxStep b k (takeByte b (loadDeadline s))).rxPhase = framePhase p.length (k + 1) := by
  obtain ⟨hsize, -⟩ := lengthByte_toNat hpos hmax
  have hp := h.phase
  rcases k with _ | _ | _ | _ | k
  · obtain rfl : sync0Byte = b := Option.some.inj hb
    simp [rxStep, hp, framePhase, stepSync0]
  · obtain rfl : sync1Byte = b := Option.some.inj hb
    simp [rxStep, hp, framePhase, stepSync1, h.mode le_rfl]
  · simp [rxStep, hp, framePhase, stepId]
  · obtain rfl : BitVec.ofNat 8 (p.length - 1) = b := Option.some.inj hb
    simp only [rxStep, takeByte_rxPhase, loadDeadline_rxPhase, hp, framePhase]
    rw [stepLen_of_fits (by rw [hsize]; exact hcap)]
    exact (framePhase_payload hpos).symm
  · have hk := lt_of_wireFrame_getElem? hb
    obtain hlt | hlo | hhi : k < p.length ∨ p.length = k ∨ p.length + 1 = k := by omega
    · rw [framePhase_payload hlt] at hp
      have hlen := h.plen (by omega)
      simp only [rxStep, takeByte_rxPhase, loadDeadline_rxPhase, hp, stepPayload_eq, takeByte_rxPlen,
        loadDeadline_rxPlen, hlen]
      split_ifs with hlast
      · rw [show k + 1 + 1 + 1 + 1 + 1 = p.length + 4 by omega, framePhase_crclo]
      · exact (framePhase_payload (k := k + 1) (by omega)).symm
    · subst hlo
      rw [framePhase_crclo] at hp
      simp only [rxStep, takeByte_rxPhase, loadDeadline_rxPhase, hp]
      exact (framePhase_crchi _).symm
    · subst hhi
      rw [framePhase_crchi] at hp
      have hcrc : crcUpdate s.rxCrc b = 0 := by
        rw [h.crc_next hb, List.take_of_length_le (by simp), crcFold_wireFrame]
      have hid : s.cfg.idEn = true → s.rxFrameId ≠ s.rxLastId := by
        rw [h.frameId (by omega)]
        exact h.fresh hk
      simp only [rxStep, takeByte_rxPhase, loadDeadline_rxPhase, hp]
      rw [stepCrcHi_accepts (s := takeByte b (loadDeadline s)) hcrc hid]
      exact (framePhase_done _).symm

/-- The phase function takes each byte of a frame that fits: a register is either just written by the
byte's phase or kept. -/
theorem FrameTaken.next (h : FrameTaken id p k s) (hb : (wireFrame id p)[k]? = some b)
    (hpos : 1 ≤ p.length) (hmax : p.length ≤ 256) (hcap : p.length + 6 ≤ s.cfg.rxCap) :
    FrameTaken id p (k + 1) (rxStep b k (takeByte b (loadDeadline s))) := by
  obtain ⟨hsize, hn⟩ := lengthByte_toNat hpos hmax
  have hphase := h.rxStep_phase hb hpos hmax hcap
  obtain ⟨hcfg, hidx, hcrc, -, -, -, hbuf, -⟩ := rxStep_keeps b k (takeByte b (loadDeadline s))
  obtain ⟨hrrq, hfid, hplen, hlid, -⟩ := rxStep_writes b k (takeByte b (loadDeadline s))
  obtain ⟨hsync0, hid, hlen, -⟩ := framePhase_eq_iff p.length k
  rw [takeByte_rxPhase, loadDeadline_rxPhase, h.phase] at hrrq hfid hplen hlid
  refine ⟨hphase, ?_, ?_, ?_, fun _ => ?_, fun h3 => ?_, fun h4 => ?_, fun hlt hen => ?_⟩
  · simp [hidx, h.index]
  · simpa [hcrc] using h.crc_next hb
  · simpa [hbuf, h.index] using h.stored_next hb
  · by_cases hk : k = 0
    · subst hk
      obtain rfl : sync0Byte = b := Option.some.inj hb
      simp [rxStep, h.phase, framePhase, stepSync0]
    · rw [hrrq (mt hsync0.1 hk)]
      exact h.mode (by omega)
  · by_cases hk : k = 2
    · subst hk
      obtain rfl : id = b := Option.some.inj hb
      simp [rxStep, h.phase, framePhase, stepId]
    · rw [hfid (mt hid.1 hk)]
      exact h.frameId (by omega)
  · by_cases hk : k = 3
    · subst hk
      obtain rfl : BitVec.ofNat 8 (p.length - 1) = b := Option.some.inj hb
      simp only [rxStep, takeByte_rxPhase, loadDeadline_rxPhase, h.phase, framePhase]
      rw [stepLen_of_fits (by rw [hsize]; exact hcap)]
      exact hn
    · rw [(hplen (mt hlen.1 hk)).1]
      exact h.plen (by omega)
  · rw [hlid]
    · exact h.fresh (by omega) (by simpa [hcfg] using hen)
    · rintro ⟨-, hd, -⟩
      obtain ⟨-, -, -, hdone⟩ := framePhase_eq_iff p.length (k + 1)
      have hend := hdone.1 (hphase.symm.trans hd)
      omega

/-- RX_BYTE with the next byte of a frame that fits completes, and the byte is taken. -/
theorem FrameTaken.exec_next (h : FrameTaken id p k s) (hb : (wireFrame id p)[k]? = some b) (hl : s.cfg.legal = true)
    (hpos : 1 ≤ p.length) (hmax : p.length ≤ 256) (hcap : p.length + 6 ≤ s.cfg.rxCap) :
    ∃ t : State, exec (.rxByte b) s = .next t ∧ t.cfg = s.cfg ∧ FrameTaken id p (k + 1) t := by
  have hk := lt_of_wireFrame_getElem? hb
  obtain ⟨-, -, -, hdone⟩ := framePhase_eq_iff p.length k
  have hd : s.rxPhase ≠ .done := by rw [h.phase, ne_eq, hdone]; omega
  have hroom : s.rxIndex < s.cfg.rxCap := by rw [h.index]; omega
  refine ⟨_, execRxByte_stored b hl hd hroom, (rxStep_keeps b s.rxIndex (takeByte b (loadDeadline s))).1, ?_⟩
  rw [h.index]
  exact (h.next hb hpos hmax hcap).with_unnamed _ .ok

end

theorem feed_append (as bs : List (Byte × Nat)) : feed (as ++ bs) = feed as ++ feed bs := List.map_append

/-- A receiver in `SYNC0` that is fed the bytes of a well-formed frame that fits has taken the first `k` of them after
`k` commands, at whatever times they come (42_rx_parser.md R151). -/
theorem feed_wireFrame {id : Byte} {p : List Byte} {bs : List (Byte × Nat)} {s : State} {k : Nat}
    (hbs : bs.map Prod.fst = wireFrame id p) (hs : FrameTaken id p 0 s) (hl : s.cfg.legal = true)
    (hpos : 1 ≤ p.length) (hmax : p.length ≤ 256) (hcap : p.length + 6 ≤ s.cfg.rxCap) (hk : k ≤ p.length + 6) :
    ∃ t : State, runAll (feed (bs.take k)) s = .next t ∧ t.cfg = s.cfg ∧ FrameTaken id p k t := by
  induction k with
  | zero => exact ⟨s, rfl, rfl, hs⟩
  | succ k ih =>
    obtain ⟨u, hrun, hcfg, hu⟩ := ih (by omega)
    have hlen : k < bs.length := by
      rw [← List.length_map (f := Prod.fst), hbs, length_wireFrame]
      omega
    have hb : (wireFrame id p)[k]? = some bs[k].1 := by
      rw [← hbs, List.getElem?_map, List.getElem?_eq_getElem hlen]
      rfl
    obtain ⟨t, hexec, hcfg', ht⟩ :=
      (hu.with_unnamed bs[k].2 u.status).exec_next hb (by rwa [hcfg]) hpos hmax (by rwa [hcfg])
    have hissue : issue (.rxByte bs[k].1) (some bs[k].2) u = .next t := hexec
    refine ⟨t, ?_, hcfg'.trans hcfg, ht⟩
    rw [← List.take_append_getElem hlen, feed_append, runAll_append hrun]
    simp only [feed, List.map_cons, List.map_nil, runAll, hissue, andThen_of_next]

/-- After a whole frame the payload port shows its payload (10_state.md R51). -/
theorem FrameTaken.rxPayload_eq {id : Byte} {p : List Byte} {s : State} (h : FrameTaken id p (p.length + 6) s)
    (hcap : p.length + 6 ≤ s.cfg.rxCap) : rxPayload s = .ok (some p) := by
  have hdone : s.rxPhase = .done := h.phase.trans (framePhase_done _)
  have hlen : s.rxPlen.toNat = p.length := h.plen (by omega)
  have hpayload : Memory.readRange .rx s.rxBuf payloadOffset p.length = p := by
    have hstored := h.stored
    rw [show p.length + 6 = payloadOffset + (p.length + 2) by rw [payloadOffset]; omega, Memory.readRange_append,
      Memory.readRange_append, List.take_of_length_le (by simp [payloadOffset]; omega), wireFrame, List.append_assoc]
      at hstored
    obtain ⟨-, hrest⟩ := List.append_inj hstored (by simp [payloadOffset])
    rw [Nat.zero_add] at hrest
    exact (List.append_inj hrest (by simp)).1
  rw [rxPayload, if_neg (not_not.2 hdone), hlen, if_pos (by rw [payloadOffset]; omega), hpayload]

/-! ## From slot to payload port -/

theorem frameIdByte_eq (s : State) : frameIdByte s = if s.cfg.idEn = true then s.txSeq + 1 else 0x00 := by
  unfold frameIdByte nextSeq
  split <;> rfl

/-- A send that no condition of R170 refuses leaves the wire frame of the slot's payload ready from its first byte. -/
theorem execTxSend_queues {n : Len} {s t : State} (h : execTxSend n s = .next t) (hidle : s.txRemaining = 0)
    (hn : sendable s.cfg n = true) :
    t.cfg = s.cfg ∧ s.cfg.legal = true ∧ t.txSrc = .frame ∧ t.txCursor = 0 ∧ t.txRemaining.toNat = n.toNat + 6
      ∧ Memory.readRange .tx t.txBuf 0 (n.toNat + 6)
          = wireFrame (frameIdByte s) (Memory.readRange .tx s.txBuf 4 n.toNat) := by
  obtain ⟨hl, ⟨hrefused, -⟩ | ⟨-, -, rfl⟩⟩ := execTxSend_next h
  · simp [hidle, hn] at hrefused
  · obtain ⟨-, hmax, -⟩ := sendable_iff.1 hn
    refine ⟨rfl, hl, rfl, rfl, ?_, readRange_buildFrame ..⟩
    rw [armDrainer_txRemaining]
    bv_omega

/-- Settles O48: the send builds the wire frame of the slot's payload, the frame is handed over from its first byte, and
the idle receiver takes it whole. -/
theorem sentPayloadArrives : Obligations.SentPayloadArrives := by
  intro a a' b n time hidle hn hmax hcapa hsend hlb hphase hindex hcrc hcapb hfresh
  obtain ⟨hcfg, hla, hsrc, hcur, hrem, hframe⟩ :=
    execTxSend_queues hsend hidle (sendable_iff.2 ⟨hn, hmax, hcapa⟩)
  have hcur0 : a'.txCursor.toNat = 0 := by rw [hcur]; rfl
  obtain ⟨a'', hhand, -, -, hleft⟩ := handOver_frame (k := n.toNat + 6) (by rwa [hcfg]) hsrc
    (by rw [hcur0, hrem, hcfg]; omega) (by omega) (by omega)
  have hlen := Memory.length_readRange .tx a.txBuf 4 n.toNat
  have hpos : 1 ≤ n.toNat := by bv_omega
  rw [hcur0, hframe] at hhand
  have hstart : FrameTaken (frameIdByte a) (Memory.readRange .tx a.txBuf 4 n.toNat) 0 b :=
    ⟨hphase, hindex, hcrc, rfl, by omega, by omega, by omega, fun _ hen => frameIdByte_eq a ▸ hfresh hen⟩
  obtain ⟨b', hfeed, hcfgb, hb'⟩ := feed_wireFrame
    (bs := (wireFrame (frameIdByte a) (Memory.readRange .tx a.txBuf 4 n.toNat)).map fun x => (x, time))
    (by simp [Function.comp_def]) hstart hlb (by rwa [hlen]) (by rwa [hlen]) (by rwa [hlen]) le_rfl
  rw [List.take_of_length_le (by simp)] at hfeed
  exact ⟨_, a'', b', hhand, by bv_omega, hfeed, hb'.rxPayload_eq (by rwa [hlen, hcfgb])⟩

end Sys2Proof.Machine
end

section
/-!
PROOF. The obligations of spec/41_crc.md: the bitwise form is eight steps of a linear, injective shift register, from
which follow the table form, the detection of a changed byte, and the effects of the two CRC commands.
-/

namespace Sys2Proof.Machine

/-! ## The shift register of the bitwise form (R110) -/

theorem crcUpdateBits_eq_iterate (c : Crc) (b : Byte) : crcUpdateBits c b = crcShift^[8] (c ^^^ b.setWidth 16) := rfl

theorem crcShift_of_low_zero {x : Crc} (h : x.getLsbD 0 = false) : crcShift x = x >>> 1 := if_neg (by rw [h]; decide)

/-- Every bit after a shift: the next higher bit, with the polynomial's bit added when a 1 was shifted out. -/
theorem getLsbD_crcShift (x : Crc) (i : Nat) :
    (crcShift x).getLsbD i = (x.getLsbD (1 + i) ^^ (x.getLsbD 0 && (0x8408 : Crc).getLsbD i)) := by
  cases h : x.getLsbD 0
  · rw [crcShift_of_low_zero h, BitVec.getLsbD_ushiftRight, Bool.false_and, Bool.xor_false]
  · rw [crcShift, if_pos h, BitVec.getLsbD_xor, BitVec.getLsbD_ushiftRight, Bool.true_and]

/-- A shift is linear, since each bit after it is a sum of bits before it. -/
theorem crcShift_xor (x y : Crc) : crcShift (x ^^^ y) = crcShift x ^^^ crcShift y := by
  apply BitVec.eq_of_getLsbD_eq
  intro i _
  simp only [BitVec.getLsbD_xor, getLsbD_crcShift, Bool.and_xor_distrib_right, Bool.xor_assoc, Bool.xor_left_comm]

theorem iterate_crcShift_xor (n : Nat) (x y : Crc) : crcShift^[n] (x ^^^ y) = crcShift^[n] x ^^^ crcShift^[n] y := by
  induction n generalizing x y with
  | zero => rfl
  | succ n ih => simp only [Function.iterate_succ_apply, crcShift_xor, ih]

/-- While only zero bits are shifted out, the register just shifts. -/
theorem iterate_crcShift_of_low_zero {n : Nat} {x : Crc} (h : ∀ i < n, x.getLsbD i = false) :
    crcShift^[n] x = x >>> n := by
  induction n generalizing x with
  | zero => rfl
  | succ n ih =>
    have hrest : ∀ i < n, (x >>> 1).getLsbD i = false := fun i hi => by
      rw [BitVec.getLsbD_ushiftRight]
      exact h (1 + i) (by omega)
    rw [Function.iterate_succ_apply, crcShift_of_low_zero (h 0 n.succ_pos), ih hrest, Nat.add_comm,
      BitVec.shiftRight_add]

/-- The bit shifted out comes back as the top bit, because the polynomial has its top bit set. -/
theorem getLsbD_crcShift_top (x : Crc) : (crcShift x).getLsbD 15 = x.getLsbD 0 := by
  rw [getLsbD_crcShift, BitVec.getLsbD_of_ge x _ le_rfl, Bool.false_xor]
  exact Bool.and_true _

/-- The top bit tells which bit was shifted out, and with it every other bit is known. -/
theorem crcShift_injective : Function.Injective crcShift := by
  intro x y hxy
  have hlow : x.getLsbD 0 = y.getLsbD 0 := by rw [← getLsbD_crcShift_top, hxy, getLsbD_crcShift_top]
  apply BitVec.eq_of_getLsbD_eq
  intro i _
  cases i with
  | zero => exact hlow
  | succ i =>
    have hbit := congrArg (fun v => BitVec.getLsbD v i) hxy
    simp only [getLsbD_crcShift, hlow, Bool.xor_left_inj] at hbit
    rwa [Nat.add_comm]

/-! ## The table form (R110, R111) -/

/-- Settles O13: the 256 entries of the listed table, each computed. -/
theorem crcTableEntriesAreShiftedIndexes : Obligations.CrcTableEntriesAreShiftedIndexes := by
  unfold Obligations.CrcTableEntriesAreShiftedIndexes
  decide

theorem crcTable_eq_iterate (n : Byte) : crcTable n = crcShift^[8] (n.setWidth 16) := by
  rw [crcTableEntriesAreShiftedIndexes n, crcUpdateBits_eq_iterate]
  simp

/-- A byte stands wholly in the low half of the register. -/
theorem byte_shiftRight_eight (b : Byte) : b.setWidth 16 >>> 8 = 0#16 := by bv_omega

/-- Eight shifts of a register: the high byte moves down, and the low byte contributes its table entry. -/
theorem iterate_crcShift_eight (x : Crc) : crcShift^[8] x = x >>> 8 ^^^ crcTable (x.setWidth 8) := by
  have hlow : ∀ i < 8, (x ^^^ (x.setWidth 8).setWidth 16).getLsbD i = false := fun i hi => by
    simp [hi, show i < 16 by omega]
  have hhigh : (x ^^^ (x.setWidth 8).setWidth 16) >>> 8 = x >>> 8 := by
    rw [BitVec.ushiftRight_xor_distrib, byte_shiftRight_eight, BitVec.xor_zero]
  calc crcShift^[8] x
      = crcShift^[8] (x ^^^ (x.setWidth 8).setWidth 16 ^^^ (x.setWidth 8).setWidth 16) := by
        rw [BitVec.xor_assoc, BitVec.xor_self, BitVec.xor_zero]
    _ = x >>> 8 ^^^ crcTable (x.setWidth 8) := by
        rw [iterate_crcShift_xor, iterate_crcShift_of_low_zero hlow, hhigh, crcTable_eq_iterate]

/-- Settles O12: the byte folded in stands in the low half only, so it is gone from the half that moves down. -/
theorem crcTableFormEqualsBitwiseForm : Obligations.CrcTableFormEqualsBitwiseForm := by
  intro c b
  rw [crcUpdateBits_eq_iterate, iterate_crcShift_eight, BitVec.ushiftRight_xor_distrib, byte_shiftRight_eight,
    BitVec.xor_zero, crcUpdate]

/-! ## Folds over a sequence (R113, R116, R117) -/

/-- Settles O14: the state before the check bytes is the fold of the sequence, and its own two bytes bring it to 0. -/
theorem crcResidueIsZero : Obligations.CrcResidueIsZero := by
  intro l
  rw [crcFold_append]
  exact crcFold_low_high (crcFold 0xFFFF l)

/-- Settles O15: nine updates, computed. -/
theorem crcCheckValue : Obligations.CrcCheckValue := by
  unfold Obligations.CrcCheckValue
  decide

theorem crcUpdate_state_injective (b : Byte) : Function.Injective fun c => crcUpdate c b := by
  intro c c' h
  simp only [crcTableFormEqualsBitwiseForm _ _, crcUpdateBits_eq_iterate] at h
  exact (BitVec.xor_left_inj _).1 (crcShift_injective.iterate 8 h)

theorem crcUpdate_byte_injective (c : Crc) : Function.Injective (crcUpdate c) := by
  intro b b' h
  simp only [crcTableFormEqualsBitwiseForm _ _, crcUpdateBits_eq_iterate] at h
  have hwide : b.setWidth 16 = b'.setWidth 16 := (BitVec.xor_right_inj _).1 (crcShift_injective.iterate 8 h)
  bv_omega

theorem crcFold_state_injective (l : List Byte) : Function.Injective fun c => crcFold c l := by
  induction l with
  | nil => exact Function.injective_id
  | cons b l ih => exact ih.comp (crcUpdate_state_injective b)

/-- Settles O16: the changed byte gives another state, and every later byte keeps two states apart. -/
theorem crcDetectsEveryOneByteChange : Obligations.CrcDetectsEveryOneByteChange := by
  intro c before after b b' hne heq
  rw [crcFold_append, crcFold_append, crcFold_cons, crcFold_cons] at heq
  exact hne (crcUpdate_byte_injective _ (crcFold_state_injective after heq))

/-! ## The words of the CRC commands (30_encoding.md R89, R90) -/

/-- The opcode of a word that decodes tells which row it matches. -/
theorem matches_of_decode_ok {r : OpcodeRow} {w : Word} {i : Instr} (hr : r ∈ opcodeRows)
    (hop : opField w = opField r.pattern) (h : decode w = .ok i) : r.matches w := by
  obtain ⟨r', hr', hmatch⟩ := decode_ok_iff_matches.1 ⟨i, h⟩
  have hop' : opField w = opField r'.pattern := (fixed_fields_of_matches hr' hmatch).1
  rwa [opcodeRows_opField_injective r hr r' hr' (hop.symm.trans hop')]

theorem decode_error_of_not_matches {r : OpcodeRow} {w : Word} (hr : r ∈ opcodeRows)
    (hop : opField w = opField r.pattern) (hno : ¬r.matches w) : ∃ e, decode w = .error e :=
  decode_error_iff.2 fun ⟨_, h⟩ => hno (matches_of_decode_ok hr hop h)

/-- The row of CRC_INIT in R89. -/
def crcInitRow : OpcodeRow := ⟨"CRC_INIT", 0x10000000, 0xFFFFFFFF⟩

theorem crcInitRow_mem : crcInitRow ∈ opcodeRows := by decide

theorem eq_of_crcInitRow_matches {w : Word} (h : crcInitRow.matches w) : w = 0x10000000 :=
  BitVec.and_allOnes.symm.trans h

/-- The row of CRC_UPDATE in R89. -/
def crcUpdateRow : OpcodeRow := ⟨"CRC_UPDATE", 0x20000000, 0xFFFFFF00⟩

theorem crcUpdateRow_mem : crcUpdateRow ∈ opcodeRows := by decide

/-- The row of CRC_UPDATE leaves no field free but the data byte. -/
theorem eq_encode_of_crcUpdateRow_matches {w : Word} (h : crcUpdateRow.matches w) :
    w = encode (.crcUpdate (dataField w)) := by
  obtain ⟨hop, hrsv1, hrsv0⟩ := fixed_fields_of_matches crcUpdateRow_mem h
  obtain ⟨-, -, harg, -⟩ := OpcodeRow.fields_of_matches h
  have harg0 : argField w = 0 := BitVec.and_allOnes.symm.trans harg
  calc w = wordOf (opField w) (argField w) (dataField w) := (wordOf_fields hrsv1 hrsv0).symm
    _ = encode (.crcUpdate (dataField w)) := by rw [hop, harg0]; rfl

theorem decode_crcUpdate_iff {w : Word} {b : Byte} :
    decode w = .ok (.crcUpdate b) ↔ crcUpdateRow.matches w ∧ dataField w = b := by
  constructor
  · intro h
    obtain rfl := encode_of_decode_ok h
    exact ⟨matches_of_decode_ok crcUpdateRow_mem (opField_wordOf ..) h, dataField_wordOf ..⟩
  · rintro ⟨h, rfl⟩
    exact (congrArg decode (eq_encode_of_crcUpdateRow_matches h)).trans (decode_encode _)

/-! ## The CRC commands (R114, R115) -/

/-- Settles O17: the row of CRC_INIT fixes its whole word, and the command writes the initial value. -/
theorem crcInitSetsAccumulator : Obligations.CrcInitSetsAccumulator := by
  refine ⟨by decide, fun w hop hne => ?_, fun s hl => configured_legal hl _⟩
  exact decode_error_of_not_matches crcInitRow_mem hop fun h => hne (eq_of_crcInitRow_matches h)

/-- The check bytes of a state bring it to 0 in the bitwise form too. -/
theorem crcUpdateBits_check_bytes (c : Crc) : crcUpdateBits (crcUpdateBits c (crcLow c)) (crcHigh c) = 0 := by
  rw [← crcTableFormEqualsBitwiseForm, ← crcTableFormEqualsBitwiseForm]
  exact crcFold_low_high c

/-- Settles O18: the row of CRC_UPDATE fixes all but the data byte, and the command folds that byte in. -/
theorem crcUpdateFoldsByte : Obligations.CrcUpdateFoldsByte := by
  refine ⟨fun w b => decode_crcUpdate_iff, fun w => decode_error_of_not_matches crcUpdateRow_mem,
    fun s b hl => ?_, by decide, by decide, by decide, crcUpdateBits_check_bytes⟩
  rw [← crcTableFormEqualsBitwiseForm]
  exact configured_legal hl _

end Sys2Proof.Machine
end

section
/-!
PROOF. What the phase function does in each case of a phase, and what RX_BYTE answers with room in the buffer and
without (spec/42_rx_parser.md R130 to R147).
-/

namespace Sys2Proof.Machine

/-! ## The phase function, case by case (R136, R137, R146) -/

theorem stepSync0_normal {b : Byte} (s : State) (h : b = 0xFF) :
    stepSync0 b s = { s with rxRrq := false, rxPhase := .sync1 } := if_pos h

theorem stepSync0_resend {b : Byte} {s : State} (h : b = 0x00) (hen : s.cfg.resendEn = true) :
    stepSync0 b s = { s with rxRrq := true, rxPhase := .sync1 } := by
  subst h
  exact (if_neg (by decide)).trans (if_pos ⟨rfl, hen⟩)

theorem stepSync0_rejects {b : Byte} {s : State} (h : b ≠ 0xFF) (h' : ¬(b = 0x00 ∧ s.cfg.resendEn = true)) :
    stepSync0 b s = enterError .header s := (if_neg h).trans (if_neg h')

/-- The second byte in normal mode (R137). -/
theorem stepSync1_normal {s : State} (h : s.rxRrq = false) (b : Byte) :
    stepSync1 b s = if b = 0x55 then { s with rxPhase := .id } else enterError .header s := if_pos h

/-- The second byte in resend sub-mode (R137). -/
theorem stepSync1_resend {s : State} (h : s.rxRrq = true) (b : Byte) :
    stepSync1 b s = if b = 0xAA then { s with rxPhase := .rrq } else enterError .header s := if_neg (by simp [h])

/-- A length byte whose frame does not fit is a SIZE error, with both lengths written (R140). -/
theorem stepLen_of_exceeds {b : Byte} {s : State} (h : s.cfg.rxCap < b.toNat + 7) :
    stepLen b s = enterError .size { s with rxPlen := b.setWidth 9 + 1, rxExpected := b.setWidth 9 + 7 } := if_pos h

theorem stepCrcHi_rejects_crc {s : State} (h : s.rxCrc ≠ 0) : stepCrcHi s = enterError .crc s := if_pos h

theorem stepCrcHi_rejects_duplicate {s : State} (hcrc : s.rxCrc = 0) (hen : s.cfg.idEn = true)
    (hid : s.rxFrameId = s.rxLastId) : stepCrcHi s = enterError .duplicateId s :=
  (if_neg (not_not.2 hcrc)).trans (if_pos ⟨hen, hid⟩)

theorem rxStep_of_error {s : State} (h : s.rxPhase = .error) (b : Byte) (i : Nat) : rxStep b i s = s := by
  simp only [rxStep, h]

/-- `DONE` is entered from `CRCHI` only, with residue 0 (R146). -/
theorem rxStep_enters_done {b : Byte} {i : Nat} {s : State} (hd : s.rxPhase ≠ .done)
    (h : (rxStep b i s).rxPhase = .done) : s.rxPhase = .crchi ∧ s.rxCrc = 0 := by
  cases hp : s.rxPhase <;> simp only [rxStep, hp] at h
  case sync0 => unfold stepSync0 at h; split_ifs at h; simp at h
  case sync1 => unfold stepSync1 at h; split_ifs at h <;> simp at h
  case id => simp [stepId] at h
  case len => unfold stepLen at h; dsimp only at h; split_ifs at h; simp at h
  case payload => rw [stepPayload_eq, hp] at h; dsimp only at h; split_ifs at h
  case crchi =>
    refine ⟨rfl, ?_⟩
    by_contra hcrc
    simp [stepCrcHi_rejects_crc hcrc] at h
  case done => exact absurd hp hd
  all_goals simp at h

/-- A latch of another cause does not record `d`. -/
theorem enterError_rxErrCause_ne {c d : ErrCause} (hc : c ≠ d) {s : State} (h : s.rxErrCause ≠ d) :
    (enterError c s).rxErrCause ≠ d := by
  rw [enterError_rxErrCause]
  split
  · exact h
  · exact hc

/-- BUFFER_OVERRUN is no cause of the phase function (60_exceptions.md R220). -/
theorem rxStep_rxErrCause_ne_bufferOverrun (b : Byte) (i : Nat) {s : State} (h : s.rxErrCause ≠ .bufferOverrun) :
    (rxStep b i s).rxErrCause ≠ .bufferOverrun := by
  cases hp : s.rxPhase <;> simp only [rxStep, hp]
  case sync0 => unfold stepSync0; split_ifs; exacts [h, h, enterError_rxErrCause_ne (by decide) h]
  case sync1 =>
    unfold stepSync1
    split_ifs
    exacts [h, enterError_rxErrCause_ne (by decide) h, h, enterError_rxErrCause_ne (by decide) h]
  case len => unfold stepLen; dsimp only; split_ifs; exacts [enterError_rxErrCause_ne (by decide) h, h]
  case payload => rwa [stepPayload_eq]
  case crchi =>
    unfold stepCrcHi
    split
    · exact enterError_rxErrCause_ne (by decide) h
    · split; exacts [enterError_rxErrCause_ne (by decide) h, h]
  case rrq => exact enterError_rxErrCause_ne (by decide) h
  all_goals exact h

/-! ## What RX_BYTE answers -/

/-- With room in the buffer and outside `DONE` the byte is stored, and the phase function follows (R134, R135). -/
theorem eq_rxStep_of_room {b : Byte} {s t : State} (h : exec (.rxByte b) s = .next t) (hc : s.rxIndex < s.cfg.rxCap)
    (hd : s.rxPhase ≠ .done) : t = { rxStep b s.rxIndex (takeByte b (loadDeadline s)) with status := .ok } := by
  obtain ⟨-, ⟨hd', -⟩ | ⟨-, hc', -⟩ | ⟨-, -, ht⟩⟩ := execRxByte_next h
  · exact absurd hd' hd
  · exact absurd hc (Nat.not_lt.2 hc')
  · exact ht

/-- With the buffer full the byte is dropped, and the first cause stays (R133). -/
theorem execRxByte_full {s : State} (b : Byte) (hl : s.cfg.legal = true) (hd : s.rxPhase ≠ .done)
    (hc : s.cfg.rxCap ≤ s.rxIndex) :
    exec (.rxByte b) s = .next
      { s with
        rxDeadline := s.cfg.timeoutBudget
        rxLast := s.now % 2 ^ s.cfg.tickBits
        rxPhase := .error
        rxErrCause := if s.rxPhase = .error then s.rxErrCause else .bufferOverrun
        status := .ok } := by
  refine (execRxByte_dropped b hl hd hc).trans ?_
  by_cases hp : s.rxPhase = .error
  · rw [enterError_of_error (s := loadDeadline s) hp]
    simp [loadDeadline, sampleNow, hp]
  · rw [enterError_of_ne (s := loadDeadline s) hp, if_neg hp]
    rfl

end Sys2Proof.Machine
end

section
/-!
PROOF. The obligations of spec/42_rx_parser.md.
-/

namespace Sys2Proof.Machine

/-! ## Coverage of the receive CRC (R145) -/

/-- What the coverage of the receive CRC reads. -/
theorem CrcCoverage.congr {s t : State} (h : CrcCoverage s) (hcrc : t.rxCrc = s.rxCrc) (hbuf : t.rxBuf = s.rxBuf)
    (hidx : t.rxIndex = s.rxIndex) (hdone : t.rxPhase = .done → s.rxPhase = .done) : CrcCoverage t := by
  obtain ⟨hcov, hzero⟩ := h
  exact ⟨by rw [hcrc, hbuf, hidx, hcov], fun hd => hcrc ▸ hzero (hdone hd)⟩

/-- An idle receiver has stored nothing and folded nothing. -/
theorem crcCoverage_of_idle {s : State} (hcrc : s.rxCrc = crcInitValue) (hidx : s.rxIndex = 0)
    (hp : s.rxPhase = .sync0) : CrcCoverage s :=
  ⟨by rw [hcrc, hidx]; rfl, fun hd => by simp [hp] at hd⟩

/-- A stored byte extends both the bytes and their CRC by one, and `DONE` asks for CRC 0. -/
theorem CrcCoverage.store {s : State} (h : CrcCoverage s) (b : Byte) (hd : s.rxPhase ≠ .done) :
    CrcCoverage (rxStep b s.rxIndex (takeByte b (loadDeadline s))) := by
  obtain ⟨hcov, -⟩ := h
  obtain ⟨-, hidx, hcrc, -, -, -, hbuf, -⟩ := rxStep_keeps b s.rxIndex (takeByte b (loadDeadline s))
  refine ⟨?_, fun hdone => ?_⟩
  · have hset := Memory.readRange_set_succ .rx s.rxBuf 0 s.rxIndex b
    rw [Nat.zero_add] at hset
    rw [hcrc, hbuf, hidx]
    simp only [takeByte_rxCrc, takeByte_rxBuf, takeByte_rxIndex, loadDeadline_rxCrc, loadDeadline_rxBuf,
      loadDeadline_rxIndex, hset, crcFold_append, ← hcov]
    rfl
  · rw [hcrc]
    exact (rxStep_enters_done (s := takeByte b (loadDeadline s)) hd hdone).2

theorem exec_keeps_crcCoverage {i : Instr} {s t : State} (hs : CrcCoverage s) (h : exec i s = .next t) :
    CrcCoverage t := by
  cases i with
  | crcInit => obtain ⟨-, rfl⟩ := execCrcInit_next h; exact hs
  | crcUpdate b => obtain ⟨-, rfl⟩ := execCrcUpdate_next h; exact hs
  | rxByte b =>
    obtain ⟨-, ⟨-, rfl⟩ | ⟨-, -, rfl⟩ | ⟨hd, -, rfl⟩⟩ := execRxByte_next h
    · exact hs
    · exact hs.congr (by simp) (by simp) (by simp) (by simp)
    · exact hs.store b hd
  | rxIdle =>
    obtain ⟨-, ⟨-, rfl⟩ | ⟨-, -, rfl⟩ | ⟨-, -, rfl⟩⟩ := execRxIdle_next h
    · exact hs
    · obtain ⟨-, -, -, -, -, -, -, -, -, hp, hidx, -, hcrc⟩ := timeoutFire_keeps { s with rxLast := sampleNow s }
      exact crcCoverage_of_idle hcrc hidx hp
    · exact hs
  | rxRelease =>
    obtain ⟨-, ⟨-, rfl⟩ | ⟨-, rfl⟩⟩ := execRxRelease_next h
    · exact crcCoverage_of_idle rfl rfl rfl
    · exact hs
  | txSlotWrite k b => obtain ⟨-, ⟨-, rfl⟩ | ⟨-, -, -, rfl⟩⟩ := execTxSlotWrite_next h <;> exact hs
  | txSend n => obtain ⟨-, ⟨-, rfl⟩ | ⟨-, -, rfl⟩⟩ := execTxSend_next h <;> exact hs
  | txAccept => obtain ⟨-, ⟨-, rfl⟩ | ⟨-, -, rfl⟩⟩ := execTxAccept_next h <;> exact hs

/-- Settles O54: every command keeps the coverage, and the host's stream is not in it. -/
theorem stepKeepsReceiveCrcCoverage : Obligations.StepKeepsReceiveCrcCoverage :=
  fun _ _ => step_preserves (fun _ _ _ _ hu => hu) fun _ _ _ => exec_keeps_crcCoverage

/-! ## Refused, stored, dropped (R131 to R134, R147) -/

/-- Settles O20: the check for `DONE` comes first. -/
theorem rxByteRefusedInDone : Obligations.RxByteRefusedInDone := by
  intro s b hl hd
  exact (configured_legal hl _).trans (if_pos hd)

/-- Settles O21: the phase function follows the stored byte and writes none of the registers named. -/
theorem rxByteStoresFoldsAndCounts : Obligations.RxByteStoresFoldsAndCounts := by
  intro s b hl hd
  by_cases hc : s.rxIndex < s.cfg.rxCap
  · obtain ⟨-, hidx, hcrc, hdl, hlast, -, hrx, htx, -⟩ := rxStep_keeps b s.rxIndex (takeByte b (loadDeadline s))
    refine ⟨_, execRxByte_stored b hl hd hc, rfl, hdl, hlast, fun _ => ⟨hcrc, hidx, fun k => ?_, fun k => ?_⟩⟩
    · simp only [State.rxByte, hrx]
      exact Memory.read_set ..
    · simp only [State.txByte, htx]
      rfl
  · exact ⟨_, execRxByte_full b hl hd (Nat.not_lt.1 hc), rfl, rfl, rfl, fun h => absurd h hc⟩

/-- A timeout keeps the cause of a standing error and records TIMEOUT for a forced one (44_timeout_and_tick.md R193). -/
theorem timeoutFire_rxErrCause_ne_bufferOverrun {s : State} (h : s.rxErrCause ≠ .bufferOverrun) :
    (timeoutFire s).rxErrCause ≠ .bufferOverrun := by
  rcases timeoutFire_cases s with ⟨-, e⟩ | ⟨-, e⟩ | ⟨-, e⟩ | ⟨-, -, -, e⟩
  · simpa [e] using enterError_rxErrCause_ne (by decide) h
  all_goals simpa [e] using h

/-- Under the invariants the buffer is full in `ERROR` only, where the cause is kept. -/
theorem exec_keeps_no_bufferOverrun {i : Instr} {s t : State} (hs : Inv s) (hb : s.rxErrCause ≠ .bufferOverrun)
    (h : exec i s = .next t) : t.rxErrCause ≠ .bufferOverrun := by
  cases i with
  | crcInit => obtain ⟨-, rfl⟩ := execCrcInit_next h; exact hb
  | crcUpdate b => obtain ⟨-, rfl⟩ := execCrcUpdate_next h; exact hb
  | rxByte b =>
    obtain ⟨hl, ⟨-, rfl⟩ | ⟨hd, hc, rfl⟩ | ⟨-, -, rfl⟩⟩ := execRxByte_next h
    · exact hb
    · have hp := (rxInv_of_inv hs).error_of_full hl hd hc
      rwa [enterError_of_error (by simpa using hp)]
    · exact rxStep_rxErrCause_ne_bufferOverrun b _ hb
  | rxIdle =>
    obtain ⟨-, ⟨-, rfl⟩ | ⟨-, -, rfl⟩ | ⟨-, -, rfl⟩⟩ := execRxIdle_next h
    · exact hb
    · exact timeoutFire_rxErrCause_ne_bufferOverrun hb
    · exact hb
  | rxRelease => obtain ⟨-, ⟨-, rfl⟩ | ⟨-, rfl⟩⟩ := execRxRelease_next h <;> exact hb
  | txSlotWrite k b => obtain ⟨-, ⟨-, rfl⟩ | ⟨-, -, -, rfl⟩⟩ := execTxSlotWrite_next h <;> exact hb
  | txSend n => obtain ⟨-, ⟨-, rfl⟩ | ⟨-, -, rfl⟩⟩ := execTxSend_next h <;> exact hb
  | txAccept => obtain ⟨-, ⟨-, rfl⟩ | ⟨-, -, rfl⟩⟩ := execTxAccept_next h <;> exact hb

/-- Settles O22: the invariants leave `ERROR` as the only phase with a full buffer, so no overrun is a first cause. -/
theorem rxByteOverflowIsDropped : Obligations.RxByteOverflowIsDropped := by
  refine ⟨fun s b => execRxByte_full b, fun s hl hs => (rxInv_of_inv hs).error_of_full hl, fun s t hs hb h => ?_⟩
  exact (step_preserves (P := fun u => Inv u ∧ u.rxErrCause ≠ .bufferOverrun)
    (fun _ _ _ _ ⟨hu, hb⟩ => ⟨hu.with_unnamed .., hb⟩)
    (fun _ _ _ ⟨hu, hb⟩ hx => ⟨exec_keeps_inv hu hx, exec_keeps_no_bufferOverrun hu hb hx⟩) ⟨hs, hb⟩ h).2

/-- Settles O27: in `ERROR` the phase function does nothing, and a dropped byte finds its cause latched. -/
theorem errorAbsorbsBytes : Obligations.ErrorAbsorbsBytes := by
  intro s b hl hp
  have hd : s.rxPhase ≠ .done := by simp [hp]
  by_cases hc : s.rxIndex < s.cfg.rxCap
  · refine ⟨_, execRxByte_stored b hl hd hc, ?_, fun k => ?_⟩ <;>
      rw [rxStep_of_error (s := takeByte b (loadDeadline s)) hp]
    · rw [if_pos hc, if_pos hc]
      rfl
    · simp only [hc, and_true]
      exact Memory.read_set ..
  · refine ⟨_, execRxByte_full b hl hd (Nat.not_lt.1 hc), ?_, fun k => ?_⟩
    · simp [hc, hp]
    · simp [hc, State.rxByte]

/-! ## Phase by phase (R136 to R146) -/

/-- Settles O23: each sync phase's rule, after the byte is stored. -/
theorem syncBytesSelectTheMode : Obligations.SyncBytesSelectTheMode := by
  intro s t b hc h
  refine ⟨fun hp => ?_, fun hp hr => ?_, fun hp hr => ?_, fun hp => ?_⟩ <;>
    obtain rfl := eq_rxStep_of_room h hc (by simp [hp]) <;>
    simp only [rxStep, takeByte_rxPhase, loadDeadline_rxPhase, hp]
  · refine ⟨fun hb => ?_, fun hb hen => ?_, fun hb hb' => ?_⟩
    · rw [stepSync0_normal _ hb]
      exact ⟨rfl, rfl, rfl⟩
    · rw [stepSync0_resend (s := takeByte b (loadDeadline s)) hb hen]
      exact ⟨rfl, rfl, rfl⟩
    · rw [stepSync0_rejects (s := takeByte b (loadDeadline s)) hb hb']
      simp [enterError_rxErrCause, hp]
  · rw [stepSync1_normal (s := takeByte b (loadDeadline s)) hr]
    refine ⟨fun hb => ?_, fun hb => ?_⟩
    · rw [if_pos hb]
      exact ⟨rfl, rfl⟩
    · rw [if_neg hb]
      simp [enterError_rxErrCause, hp]
  · rw [stepSync1_resend (s := takeByte b (loadDeadline s)) hr]
    refine ⟨fun hb => ?_, fun hb => ?_⟩
    · rw [if_pos hb]
      exact ⟨rfl, rfl⟩
    · rw [if_neg hb]
      simp [enterError_rxErrCause, hp]
  · simp [enterError_rxErrCause, hp]

/-- Settles O24: in nine bits `b + 1` and `b + 7` do not wrap, and the lengths are written before the size check. -/
theorem idAndLengthBytes : Obligations.IdAndLengthBytes := by
  intro s t b hc h
  refine ⟨fun hp => ?_, fun hp => ?_⟩ <;> obtain rfl := eq_rxStep_of_room h hc (by simp [hp]) <;>
    simp only [rxStep, takeByte_rxPhase, loadDeadline_rxPhase, hp]
  · exact ⟨rfl, rfl, rfl, rfl⟩
  · have hplen : (b.setWidth 9 + 1).toNat = b.toNat + 1 := by bv_omega
    have hexp : (b.setWidth 9 + 7).toNat = b.toNat + 7 := by bv_omega
    by_cases hfit : b.toNat + 7 ≤ s.cfg.rxCap
    · rw [stepLen_of_fits (s := takeByte b (loadDeadline s)) hfit]
      exact ⟨hplen, hexp, fun hx => absurd hfit (Nat.not_le.2 hx), fun _ => ⟨rfl, rfl⟩⟩
    · rw [stepLen_of_exceeds (s := takeByte b (loadDeadline s)) (Nat.not_le.1 hfit)]
      refine ⟨?_, ?_, fun _ => ?_, fun hx => absurd hx hfit⟩
      · simpa using hplen
      · simpa using hexp
      · simp [enterError_rxErrCause, hp]

/-- Settles O25: the two phases write only the phase after the byte is stored. -/
theorem payloadBytesAreCountedOff : Obligations.PayloadBytesAreCountedOff := by
  intro s t b hc h
  refine ⟨fun hp => ?_, fun hp => ?_⟩ <;> obtain rfl := eq_rxStep_of_room h hc (by simp [hp]) <;>
    simp only [rxStep, takeByte_rxPhase, loadDeadline_rxPhase, hp]
  · rw [stepPayload_eq]
    refine ⟨Memory.read_set_same .rx s.rxBuf s.rxIndex b, rfl, rfl, rfl, ?_⟩
    simp [hp]
  · exact ⟨Memory.read_set_same .rx s.rxBuf s.rxIndex b, rfl, rfl, trivial⟩

/-- Settles O26: the three outcomes of the last byte; an accepted frame's payload lies inside the buffer. -/
theorem crcHighByteValidates : Obligations.CrcHighByteValidates := by
  intro s t b hc hp h
  obtain rfl := eq_rxStep_of_room h hc (by simp [hp])
  simp only [rxStep, takeByte_rxPhase, loadDeadline_rxPhase, hp]
  refine ⟨fun hcrc => ?_, fun hcrc hen hid => ?_, fun hcrc hid => ?_⟩
  · rw [stepCrcHi_rejects_crc (s := takeByte b (loadDeadline s)) hcrc]
    simp [enterError_rxErrCause, hp]
  · rw [stepCrcHi_rejects_duplicate (s := takeByte b (loadDeadline s)) hcrc hen hid]
    simp [enterError_rxErrCause, hp]
  · rw [stepCrcHi_accepts (s := takeByte b (loadDeadline s)) hcrc fun hen heq => hid ⟨hen, heq⟩]
    exact ⟨rfl, rfl, rfl, fun hcap => (if_neg (not_not.2 rfl)).trans (if_pos hcap)⟩

/-! ## Whole frames (R151) -/

/-- The first byte of a control frame selects the resend sub-mode (R136). -/
theorem exec_rrq0Byte {s : State} (hl : s.cfg.legal = true) (hp : s.rxPhase = .sync0) (hidx : s.rxIndex = 0)
    (hen : s.cfg.resendEn = true) :
    ∃ t : State, exec (.rxByte 0x00) s = .next t ∧ t.cfg = s.cfg ∧ t.rxPhase = .sync1 ∧ t.rxRrq = true
      ∧ t.rxIndex = 1 := by
  obtain ⟨hcap, -⟩ := legal_iff.1 hl
  refine ⟨_, execRxByte_stored _ hl (by simp [hp]) (by omega), ?_⟩
  simp only [rxStep, takeByte_rxPhase, loadDeadline_rxPhase, hp]
  rw [stepSync0_resend (s := takeByte 0x00 (loadDeadline s)) rfl hen]
  exact ⟨rfl, rfl, rfl, congrArg (· + 1) hidx⟩

/-- The second byte of a control frame completes it (R137). -/
theorem exec_rrq1Byte {s : State} (hl : s.cfg.legal = true) (hp : s.rxPhase = .sync1) (hr : s.rxRrq = true)
    (hidx : s.rxIndex = 1) : ∃ t : State, exec (.rxByte 0xAA) s = .next t ∧ t.rxPhase = .rrq := by
  obtain ⟨hcap, -⟩ := legal_iff.1 hl
  refine ⟨_, execRxByte_stored _ hl (by simp [hp]) (by omega), ?_⟩
  simp only [rxStep, takeByte_rxPhase, loadDeadline_rxPhase, hp]
  rw [stepSync1_resend (s := takeByte 0xAA (loadDeadline s)) hr, if_pos rfl]

/-- A control frame reaches `RRQ` after its two bytes. -/
theorem feed_ctrlFrame {s : State} (t₀ t₁ : Nat) (hl : s.cfg.legal = true) (hp : s.rxPhase = .sync0)
    (hidx : s.rxIndex = 0) (hen : s.cfg.resendEn = true) :
    ∃ t : State, runAll (feed [(0x00, t₀), (0xAA, t₁)]) s = .next t ∧ t.rxPhase = .rrq := by
  obtain ⟨u, hu, hcfg, hup, hur, hui⟩ := exec_rrq0Byte (s := presentTime (some t₀) s) hl hp hidx hen
  obtain ⟨t, ht, htp⟩ :=
    exec_rrq1Byte (s := presentTime (some t₁) u) ((congrArg Config.legal hcfg).trans hl) hup hur hui
  refine ⟨t, ?_, htp⟩
  simp only [feed, List.map_cons, List.map_nil, runAll, issue, hu, ht, andThen_of_next]

/-- Settles O29: a frame that fits passes the phases in order, `DONE` only after its last byte. -/
theorem wellFormedFrameReachesDone : Obligations.WellFormedFrameReachesDone := by
  refine ⟨?_, fun s t₀ t₁ => feed_ctrlFrame t₀ t₁⟩
  intro s id p times hl hp hidx hcrc hpos hmax hcap hfresh hlen
  have hstart : FrameTaken id p 0 s := ⟨hp, hidx, hcrc, rfl, by omega, by omega, by omega, fun _ => hfresh⟩
  have hbytes : ((wireFrame id p).zip times).map Prod.fst = wireFrame id p := List.map_fst_zip (by simp [hlen])
  have hfeed (k : Nat) (hk : k ≤ p.length + 6) := feed_wireFrame hbytes hstart hl hpos hmax hcap hk
  refine ⟨?_, fun k hk => ?_⟩
  · obtain ⟨t, hrun, hcfg, ht⟩ := hfeed _ le_rfl
    rw [List.take_of_length_le (by simp [hlen])] at hrun
    exact ⟨t, hrun, ht.phase.trans (framePhase_done _), ht.plen (by omega), ht.rxPayload_eq (by rwa [hcfg])⟩
  · obtain ⟨u, hrun, -, hu⟩ := hfeed k hk.le
    refine ⟨u, hrun, fun hd => ?_⟩
    obtain ⟨-, -, -, hdone⟩ := framePhase_eq_iff p.length k
    have hend := hdone.1 (hu.phase.symm.trans hd)
    omega

end Sys2Proof.Machine
end

section
/-!
PROOF. The obligations of spec/43_tx.md: TX_SLOT_WRITE, TX_SEND, TX_ACCEPT, and what the drainer hands over.
-/

namespace Sys2Proof.Machine

/-! ## TX_SLOT_WRITE (R160) -/

/-- The row of TX_SLOT_WRITE in 30_encoding.md R89. -/
def txSlotWriteRow : OpcodeRow := ⟨"TX_SLOT_WRITE", 0x60000000, 0xFE00FF00⟩

theorem txSlotWriteRow_mem : txSlotWriteRow ∈ opcodeRows := by decide

/-- The row of TX_SLOT_WRITE leaves the index and the data byte free, and no other field. -/
theorem eq_encode_of_txSlotWriteRow_matches {w : Word} (h : txSlotWriteRow.matches w) :
    w = encode (.txSlotWrite (argField w) (dataField w)) := by
  obtain ⟨hop, hrsv1, hrsv0⟩ := fixed_fields_of_matches txSlotWriteRow_mem h
  calc w = wordOf (opField w) (argField w) (dataField w) := (wordOf_fields hrsv1 hrsv0).symm
    _ = encode (.txSlotWrite (argField w) (dataField w)) := by rw [hop]; rfl

theorem decode_txSlotWrite_iff {w : Word} {i : Len} {b : Byte} :
    decode w = .ok (.txSlotWrite i b) ↔ txSlotWriteRow.matches w ∧ argField w = i ∧ dataField w = b := by
  constructor
  · intro h
    obtain rfl := encode_of_decode_ok h
    exact ⟨matches_of_decode_ok txSlotWriteRow_mem (opField_wordOf ..) h, argField_wordOf .., dataField_wordOf ..⟩
  · rintro ⟨h, rfl, rfl⟩
    exact (congrArg decode (eq_encode_of_txSlotWriteRow_matches h)).trans (decode_encode _)

theorem execTxSlotWrite_refused {s : State} {i : Len} (b : Byte) (hl : s.cfg.legal = true)
    (h : s.txRemaining ≠ 0 ∨ slotSize s.cfg ≤ i.toNat) :
    execTxSlotWrite i b s = .next { s with status := .unavailable } := by
  rw [execTxSlotWrite, configured_legal hl, if_pos h]
  rfl

theorem execTxSlotWrite_stored {s : State} {i : Len} (b : Byte) (hl : s.cfg.legal = true) (hidle : s.txRemaining = 0)
    (hi : i.toNat < slotSize s.cfg) :
    execTxSlotWrite i b s
      = .next { s with txBuf := Memory.set s.txBuf (slotAddress i) b, status := .ok } := by
  have hroom : slotAddress i + 1 ≤ capacity s.cfg .tx := by
    have := slotAddress_add_two_lt_txCap hi
    rw [capacity]
    omega
  rw [execTxSlotWrite, configured_legal hl, if_neg (by simp [hidle, hi]), withinBuffer_of_le hroom]
  rfl

/-- Settles O41: the row of TX_SLOT_WRITE fixes all but the two operands, and a write that is not refused is one write
of the transmit buffer. -/
theorem txSlotWriteStoresOneByte : Obligations.TxSlotWriteStoresOneByte := by
  refine ⟨fun w i b => decode_txSlotWrite_iff, fun s i b hl => ⟨execTxSlotWrite_refused b hl, fun hidle hi => ?_⟩⟩
  exact ⟨_, execTxSlotWrite_stored b hl hidle hi, rfl, fun k => Memory.read_set .tx s.txBuf (slotAddress i) k b⟩

/-! ## TX_SEND (R165 to R170) -/

theorem sendable_eq_false_iff {c : Config} {n : Len} :
    sendable c n = false ↔ n = 0 ∨ 256 < n.toNat ∨ c.txCap < n.toNat + 6 := by
  rw [← Bool.not_eq_true, sendable_iff]
  simp only [not_and_or, not_not, not_le]

theorem execTxSend_refused {s : State} {n : Len} (hl : s.cfg.legal = true)
    (h : s.txRemaining ≠ 0 ∨ sendable s.cfg n = false) : execTxSend n s = .next { s with status := .busy } := by
  rw [execTxSend, configured_legal hl, if_pos h]
  rfl

/-- Settles O42: the three conditions on the length are those that `sendable` excludes. -/
theorem txSendIsRefused : Obligations.TxSendIsRefused :=
  fun _ _ hl h => execTxSend_refused hl (h.imp_right sendable_eq_false_iff.2)

theorem execTxSend_accepted {s : State} {n : Len} (hl : s.cfg.legal = true) (hidle : s.txRemaining = 0)
    (hn : sendable s.cfg n = true) :
    execTxSend n s
      = .next { armDrainer .frame (n + 6)
                  { s with
                    txBuf := buildFrame (frameIdByte s) n.toNat s.txBuf
                    txSeq := nextSeq s
                    txLastLen := retainedLength n s } with status := .ok } := by
  obtain ⟨-, -, hroom⟩ := sendable_iff.1 hn
  rw [execTxSend, configured_legal hl, if_neg (by simp [hidle, hn]), withinBuffer_of_le hroom]
  rfl

/-- Assembling a frame of `n` payload bytes changes no byte past it. -/
theorem read_buildFrame_past (id : Byte) {n k : Nat} (m : Memory) (hk : n + 6 ≤ k) :
    Memory.read .tx (buildFrame id n m) k = Memory.read .tx m k := by
  have hcheck : payloadOffset + n + 2 ≤ k := by rw [payloadOffset]; omega
  have hheader : 0 + 4 ≤ k := by omega
  exact (Memory.read_setMany_outside .tx _ (checkBytes _) (.inr hcheck)).trans
    (Memory.read_setMany_outside .tx m (frameHeader id n) (.inr hheader))

/-- Settles O43: the registers are those of the state that an accepted send answers, its buffer reads as the wire frame,
and the frame is all that was written. -/
theorem txSendBuildsTheWireFrame : Obligations.TxSendBuildsTheWireFrame := by
  intro s n hl hidle hpos hmax hroom
  have hn : sendable s.cfg n = true := sendable_iff.2 ⟨hpos, hmax, hroom⟩
  have hsend := execTxSend_accepted hl hidle hn
  obtain ⟨-, -, -, -, hrem, hframe⟩ := execTxSend_queues hsend hidle hn
  exact ⟨_, hsend, rfl, hrem, hframe.trans (by rw [frameIdByte_eq]), fun k hk => read_buildFrame_past _ s.txBuf hk⟩

/-! ## TX_ACCEPT (R172) -/

theorem execTxAccept_idle {s : State} (hl : s.cfg.legal = true) (hidle : s.txRemaining = 0) :
    execTxAccept s = .next { s with status := .unavailable } := by
  rw [execTxAccept, configured_legal hl, if_pos hidle]
  rfl

/-- Settles O44: below 511 the cursor's increment does not wrap, and what remains is at least one byte. -/
theorem txAcceptAdvancesTheCursor : Obligations.TxAcceptAdvancesTheCursor := by
  refine ⟨by decide, fun s hl => ⟨execTxAccept_idle hl, fun hr hc => ?_⟩⟩
  have htop : s.txCursor ≠ 511 := by bv_omega
  refine ⟨_, execTxAccept_taken hl hr htop, rfl, ?_, ?_⟩ <;> dsimp only <;> bv_omega

/-! ## Draining (R173, R174) -/

/-- The drainer offers the byte of `CTRL_FRAME` at the cursor (10_state.md R50). -/
theorem txOut_ctrl {s : State} (hr : s.txRemaining ≠ 0) (hsrc : s.txSrc = .ctrl)
    (hc : s.txCursor.toNat < ctrlFrame.length) : txOut s = .ok (some ctrlFrame[s.txCursor.toNat]) := by
  rw [txOut, if_neg hr, hsrc]
  simp only [ctrlFramePort, List.getElem?_eq_getElem hc]
  rfl

/-- The first of several TX_ACCEPTs hands over the byte on offer. -/
theorem handOver_succ {s : State} {b : Byte} (k : Nat) (hl : s.cfg.legal = true) (hr : s.txRemaining ≠ 0)
    (hc : s.txCursor ≠ 511) (hout : txOut s = .ok (some b)) :
    handOver (k + 1) s =
      andThen (handOver k { s with txCursor := s.txCursor + 1, txRemaining := s.txRemaining - 1, status := .ok })
        fun p => .next (b :: p.1, p.2) := by
  simp only [handOver, hout, exec, execTxAccept_taken hl hr hc, andThen_of_next]

/-- With bytes of the control frame to send, TX_ACCEPTs hand them over in order and change the cursor, the count and the
status only. -/
theorem handOver_ctrl {s : State} {k : Nat} (hl : s.cfg.legal = true) (hsrc : s.txSrc = .ctrl)
    (hsum : s.txCursor.toNat + s.txRemaining.toNat = 2) (hk : k ≤ s.txRemaining.toNat) :
    ∃ t : State, handOver k s = .next ((ctrlFrame.drop s.txCursor.toNat).take k, t)
      ∧ t = { s with txCursor := t.txCursor, txRemaining := t.txRemaining, status := t.status }
      ∧ t.txCursor.toNat = s.txCursor.toNat + k ∧ t.txRemaining.toNat + k = s.txRemaining.toNat := by
  induction k generalizing s with
  | zero => exact ⟨s, rfl, rfl, rfl, rfl⟩
  | succ k ih =>
    have hr : s.txRemaining ≠ 0 := by bv_omega
    have hc : s.txCursor ≠ 511 := by bv_omega
    have hcur : (s.txCursor + 1).toNat = s.txCursor.toNat + 1 := by bv_omega
    have hrem : (s.txRemaining - 1).toNat + 1 = s.txRemaining.toNat := by bv_omega
    have hin : s.txCursor.toNat < ctrlFrame.length := by rw [show ctrlFrame.length = 2 from rfl]; omega
    obtain ⟨t, hrun, ht, htcur, htrem⟩ :=
      ih (s := { s with txCursor := s.txCursor + 1, txRemaining := s.txRemaining - 1, status := .ok }) hl hsrc
        (by dsimp only; omega) (by dsimp only; omega)
    dsimp only at hrun htcur htrem
    refine ⟨t, ?_, by rw [ht], by omega, by omega⟩
    rw [handOver_succ k hl hr hc (txOut_ctrl hr hsrc hin), hrun, hcur, andThen_of_next, List.drop_eq_getElem_cons hin,
      List.take_succ_cons]

/-- Settles O46: the invariants put the bytes left to send inside the source, and each source hands them over in
order. -/
theorem drainHandsOverInOrder : Obligations.DrainHandsOverInOrder := by
  intro s k hl hs hk
  obtain ⟨hctrl, hframe, -⟩ := hs.drain
  rcases Nat.eq_zero_or_pos k with rfl | hpos
  · exact ⟨s, by cases s.txSrc <;> rfl, rfl, rfl, rfl, fun h => absurd h (lt_irrefl 0)⟩
  have hr : s.txRemaining ≠ 0 := by bv_omega
  cases hsrc : s.txSrc
  case frame =>
    have := hframe hr hsrc
    obtain ⟨t, hrun, ht, hcur, hrem⟩ := handOver_frame hl hsrc (by omega) (by omega) hk
    exact ⟨t, hrun, hrem, by rw [ht], by rw [ht], fun _ => hcur⟩
  case ctrl =>
    obtain ⟨t, hrun, ht, hcur, hrem⟩ := handOver_ctrl hl hsrc (hctrl hr hsrc) hk
    exact ⟨t, hrun, hrem, by rw [ht], by rw [ht], fun _ => hcur⟩

/-! ## Resend (R177, R178) -/

theorem timeoutFire_of_rrq {s : State} (hp : s.rxPhase = .rrq) : timeoutFire s = rxIdleReset (armResend s) := by
  obtain ⟨hi, -⟩ | ⟨he, -⟩ | ⟨-, h⟩ | ⟨-, -, hq, -⟩ := timeoutFire_cases s
  · obtain ⟨-, -, hq, -⟩ := inProgress_iff.1 hi
    exact absurd hp hq
  · simp [hp] at he
  · exact h
  · exact absurd hp hq

/-- A timeout in `RRQ` with a frame retained and TX idle queues the whole retained frame
(44_timeout_and_tick.md R194). -/
theorem execRxIdle_resends {s t : State} (hp : s.rxPhase = .rrq) (hret : s.txLastLen ≠ 0) (hidle : s.txRemaining = 0)
    (hdl : s.rxDeadline ≤ elapsedTicks s.cfg.tickBits s.rxLast (sampleNow s)) (h : execRxIdle s = .next t) :
    s.cfg.legal = true
      ∧ t = { rxIdleReset (armDrainer .frame s.txLastLen { s with rxLast := sampleNow s }) with status := .ok } := by
  obtain ⟨hl, ⟨hd, -⟩ | ⟨-, -, rfl⟩ | ⟨-, hlt, -⟩⟩ := execRxIdle_next h
  · simp [hp] at hd
  · rw [timeoutFire_of_rrq (s := { s with rxLast := sampleNow s }) hp,
      armResend_armed (s := { s with rxLast := sampleNow s }) hret hidle]
    exact ⟨hl, rfl⟩
  · exact absurd hdl (not_le.2 hlt)

/-- Settles O47: the timeout queues the retained length from the buffer's first byte, and the drain hands over that
range of the buffer as it stands. -/
theorem resendIsVerbatim : Obligations.ResendIsVerbatim := by
  intro s t hs hp hret hidle hdl h
  have ht : Inv t := exec_keeps_inv hs h
  obtain ⟨hl, rfl⟩ := execRxIdle_resends hp hret hidle hdl h
  obtain ⟨u, hrun, hrem, -⟩ := drainHandsOverInOrder _ s.txLastLen.toNat (by exact hl) ht le_rfl
  have hnone : u.txRemaining.toNat = 0 := Nat.add_eq_right.1 hrem
  exact ⟨rfl, rfl, u, hrun, by bv_omega⟩

end Sys2Proof.Machine
end

section
/-!
PROOF. The elapsed time, what a timeout does by what it finds, and what RX_IDLE answers
(spec/44_timeout_and_tick.md R190 to R198).
-/

namespace Sys2Proof.Machine

/-! ## The elapsed time (R191) -/

theorem elapsedTicks_of_le {w last now : Nat} (hn : now < 2 ^ w) (h : last ≤ now) :
    elapsedTicks w last now = now - last := by
  have hsum : now + (2 ^ w - last) = now - last + 2 ^ w := by omega
  rw [elapsedTicks, Nat.mod_eq_of_lt (by omega : last < 2 ^ w), hsum, Nat.add_mod_right, Nat.mod_eq_of_lt (by omega)]

theorem elapsedTicks_of_wrap {w last now : Nat} (hl : last < 2 ^ w) (h : now < last) :
    elapsedTicks w last now = (2 ^ w - 1 - last) + now + 1 := by
  rw [elapsedTicks, Nat.mod_eq_of_lt hl, Nat.mod_eq_of_lt (by omega)]
  omega

theorem elapsedTicks_le_max (w last now : Nat) : elapsedTicks w last now ≤ 2 ^ w - 1 :=
  Nat.le_sub_one_of_lt (Nat.mod_lt _ (Nat.two_pow_pos w))

/-! ## Conditional updates, register by register (60_exceptions.md R223, 43_tx.md R176, R177) -/

theorem enterError_eq (c : ErrCause) (s : State) :
    enterError c s =
      { s with rxPhase := .error, rxErrCause := if s.rxPhase = .error then s.rxErrCause else c } := by
  by_cases hp : s.rxPhase = .error
  · rw [enterError_of_error hp, if_pos hp, ← hp]
  · rw [enterError_of_ne hp, if_neg hp]

theorem armCtrl_eq (s : State) :
    armCtrl s =
      { s with
        txSrc := if s.cfg.resendEn = true ∧ s.txRemaining = 0 then .ctrl else s.txSrc
        txCursor := if s.cfg.resendEn = true ∧ s.txRemaining = 0 then 0 else s.txCursor
        txRemaining := if s.cfg.resendEn = true ∧ s.txRemaining = 0 then 2 else s.txRemaining } := by
  unfold armCtrl
  split <;> rfl

theorem armResend_eq (s : State) :
    armResend s =
      { s with
        txSrc := if s.txLastLen ≠ 0 ∧ s.txRemaining = 0 then .frame else s.txSrc
        txCursor := if s.txLastLen ≠ 0 ∧ s.txRemaining = 0 then 0 else s.txCursor
        txRemaining := if s.txLastLen ≠ 0 ∧ s.txRemaining = 0 then s.txLastLen else s.txRemaining } := by
  unfold armResend
  split <;> rfl

/-! ## The timeout (R193 to R197) -/

/-- A partial frame and a standing error are resolved alike: latching an error twice keeps the first cause (R193). -/
theorem timeoutFire_of_error_found {s : State}
    (h : 0 < s.rxIndex ∧ s.rxPhase ≠ .error ∧ s.rxPhase ≠ .rrq ∧ s.rxPhase ≠ .done ∨ s.rxPhase = .error) :
    timeoutFire s = rxIdleReset (armCtrl (countError (enterError .timeout s))) := by
  obtain ⟨-, e⟩ | ⟨hp, e⟩ | ⟨hp, -⟩ | ⟨hi, hp, -⟩ := timeoutFire_cases s
  · exact e
  · rw [e, enterError_of_error hp]
  · simp [hp] at h
  · obtain h | h := h
    · simp [inProgress_iff.2 h] at hi
    · exact absurd h hp

/-- With nothing received there is nothing to resolve (R197). -/
theorem timeoutFire_of_sync0 {s : State} (hp : s.rxPhase = .sync0) (hidx : s.rxIndex = 0) :
    timeoutFire s = rxIdleReset s := by
  simp [timeoutFire, abandonPartial, resolvePhase, inProgress, hp, hidx]

/-- An idle receiver under the invariants holds the idle values already (R196). -/
theorem rxIdleReset_of_sync0 {s : State} (hs : Inv s) (hc : CrcCoverage s) (hp : s.rxPhase = .sync0) :
    rxIdleReset s = s := by
  have hph := (rxInv_of_inv hs).phase
  rw [hp] at hph
  obtain ⟨hidx, ⟨hexp, hplen⟩, hrrq, hdl⟩ := hph
  have hcrc : s.rxCrc = crcInitValue := by
    obtain ⟨hcov, -⟩ := hc
    rwa [hidx] at hcov
  cases s
  subst hp hidx hexp hplen hrrq hdl hcrc
  rfl

/-- A timeout leaves the host's stream alone, and a transmission in progress too (70_reset_and_hazards.md R265). -/
theorem timeoutFire_keeps_host_and_transmission (s : State) :
    (timeoutFire s).commands = s.commands ∧ (timeoutFire s).now = s.now
      ∧ (s.txRemaining ≠ 0 → (timeoutFire s).txSrc = s.txSrc ∧ (timeoutFire s).txCursor = s.txCursor
          ∧ (timeoutFire s).txRemaining = s.txRemaining) := by
  rcases timeoutFire_cases s with ⟨-, e⟩ | ⟨-, e⟩ | ⟨-, e⟩ | ⟨-, -, -, e⟩ <;> rw [e]
  · simp +contextual [armCtrl_eq]
  · simp +contextual [armCtrl_eq]
  · simp +contextual [armResend_eq]
  · simp

/-! ## What RX_IDLE answers (R190, R192) -/

theorem execRxIdle_busy {s : State} (hl : s.cfg.legal = true) (hd : s.rxPhase = .done) :
    execRxIdle s = .next { s with status := .busy } :=
  (configured_legal hl _).trans (if_pos hd)

theorem execRxIdle_spends {s : State} (hl : s.cfg.legal = true) (hd : s.rxPhase ≠ .done)
    (h : elapsedTicks s.cfg.tickBits s.rxLast (sampleNow s) < s.rxDeadline) :
    execRxIdle s = .next
      { s with
        rxLast := sampleNow s
        rxDeadline := s.rxDeadline - elapsedTicks s.cfg.tickBits s.rxLast (sampleNow s)
        status := .ok } :=
  ((configured_legal hl _).trans (if_neg hd)).trans (if_neg (Nat.not_le.2 h))

theorem execRxIdle_completes {s : State} (hl : s.cfg.legal = true) : ∃ t : State, execRxIdle s = .next t := by
  by_cases hd : s.rxPhase = .done
  · exact ⟨_, execRxIdle_busy hl hd⟩
  · obtain h | h := Nat.lt_or_ge (elapsedTicks s.cfg.tickBits s.rxLast (sampleNow s)) s.rxDeadline
    · exact ⟨_, execRxIdle_spends hl hd h⟩
    · exact ⟨_, execRxIdle_fires hl hd h⟩

/-- On an idle line the deadline is 0, so the timeout fires, and it finds the idle values (R197). -/
theorem execRxIdle_of_sync0 {s : State} (hl : s.cfg.legal = true) (hs : Inv s) (hc : CrcCoverage s)
    (hp : s.rxPhase = .sync0) : execRxIdle s = .next { s with rxLast := sampleNow s, status := .ok } := by
  obtain ⟨-, hidle, -⟩ := hs.index
  obtain ⟨-, hdl⟩ := hs.deadline
  rw [execRxIdle_fires hl (by simp [hp]) (by simp [hdl hp]),
    timeoutFire_of_sync0 (s := { s with rxLast := sampleNow s }) hp (hidle.1 hp)]
  change Host.Outcome.next { rxIdleReset s with rxLast := sampleNow s, status := .ok } = _
  rw [rxIdleReset_of_sync0 hs hc hp]

/-- No clause of `Inv` names the timer value. -/
theorem inv_presentTime {s : State} (hs : Inv s) (v : Option Nat) : Inv (presentTime v s) := by
  cases v with
  | none => exact hs
  | some n => exact hs.with_unnamed s.crcAcc s.txBuf s.commands n s.status

/-- Any number of RX_IDLEs on an idle line move the samples and the status only (R198). -/
theorem runAll_rxIdle_of_sync0 (times : List Nat) {s : State} (hl : s.cfg.legal = true) (hs : Inv s)
    (hc : CrcCoverage s) (hp : s.rxPhase = .sync0) :
    ∃ u : State, runAll (times.map fun v => (.rxIdle, some v)) s = .next u
      ∧ u = { s with rxLast := u.rxLast, now := u.now, status := u.status } := by
  induction times generalizing s with
  | nil => exact ⟨s, rfl, rfl⟩
  | cons v times ih =>
    have hs' := inv_presentTime hs (some v)
    have hx : exec .rxIdle (presentTime (some v) s) = _ := execRxIdle_of_sync0 hl hs' hc hp
    obtain ⟨u, hrun, hu⟩ := ih (by exact hl) (exec_keeps_inv hs' hx) hc hp
    refine ⟨u, ?_, hu⟩
    rw [List.map_cons, runAll, issue, hx, andThen_of_next, hrun]

end Sys2Proof.Machine
end

section
/-!
PROOF. The obligations of spec/44_timeout_and_tick.md on RX_IDLE, the timeout and RX_RELEASE.
-/

namespace Sys2Proof.Machine

/-- Settles O30: the modular subtraction wraps exactly when the sample is below the last one. -/
theorem elapsedEqualsSourceFormula : Obligations.ElapsedEqualsSourceFormula := by
  refine ⟨fun w last now hl hn => ⟨?_, elapsedTicks_le_max w last now⟩, by decide⟩
  split
  · next h => exact elapsedTicks_of_le hn h
  · next h => exact elapsedTicks_of_wrap hl (Nat.not_le.1 h)

/-- Settles O31: refused, spent or fired, by the phase and the elapsed time. -/
theorem rxIdleSpendsTheBudget : Obligations.RxIdleSpendsTheBudget := by
  rintro s elapsed hl rfl
  refine ⟨execRxIdle_busy hl, execRxIdle_spends hl, fun hd h => ⟨_, execRxIdle_fires hl hd h, ?_⟩⟩
  obtain ⟨-, -, -, hlast, -, -, -, -, -, hp, -⟩ := timeoutFire_keeps { s with rxLast := sampleNow s }
  exact ⟨hlast, hp⟩

/-- Settles O32: the timeout latches the error, counts it, queues the control frame and returns to idle, in that
order. -/
theorem timeoutResolvesAnError : Obligations.TimeoutResolvesAnError := by
  intro s hl hfound hdl
  have hd : s.rxPhase ≠ .done := by
    rintro hd
    simp [hd] at hfound
  rw [exec, execRxIdle_fires hl hd hdl, timeoutFire_of_error_found (s := { s with rxLast := sampleNow s }) hfound,
    enterError_eq, armCtrl_eq]
  rfl

/-- Settles O33: the timeout re-arms the retained frame and returns to idle, and no step of it counts. -/
theorem timeoutAnswersAResendRequest : Obligations.TimeoutAnswersAResendRequest := by
  intro s hl hp hdl
  rw [exec, execRxIdle_fires hl (by simp [hp]) hdl, timeoutFire_of_rrq (s := { s with rxLast := sampleNow s }) hp,
    armResend_eq]
  rfl

/-- Settles O34: the timeout of an idle line writes idle values over idle values. -/
theorem idleLineHasNoSideEffect : Obligations.IdleLineHasNoSideEffect :=
  fun _ hl hs hc hp => execRxIdle_of_sync0 hl hs hc hp

/-- A receiver that is neither idle nor done is in one of the eight phases of R198. -/
theorem Phase.mem_of_ne {p : Phase} (hidle : p ≠ .sync0) (hdone : p ≠ .done) :
    p ∈ [Phase.sync1, .id, .len, .payload, .crclo, .crchi, .rrq, .error] := by
  cases p <;> simp at hidle hdone ⊢

/-- Settles O35: the timeout leaves an idle line, on which the later polls find nothing. -/
theorem oneErrorPerGap : Obligations.OneErrorPerGap := by
  intro s t hs hidx hd hdl h
  obtain ⟨-, hidle, -⟩ := hs.index
  have hcount := execRxIdle_errCount h
  have hcfg := exec_keeps_cfg h
  have ht : Inv t := exec_keeps_inv hs h
  obtain ⟨hl, ⟨hd', -⟩ | ⟨-, -, rfl⟩ | ⟨-, hlt, -⟩⟩ := execRxIdle_next h
  · exact absurd hd' hd
  · obtain ⟨-, -, -, -, -, -, -, -, -, hp, hi, -, hcrc⟩ := timeoutFire_keeps { s with rxLast := sampleNow s }
    refine ⟨Phase.mem_of_ne (fun hp => hidx.ne' (hidle.1 hp)) hd, hp, ?_, fun times => ?_⟩
    · rw [hcount]
      by_cases hq : s.rxPhase = .rrq
      · simp [hq]
      · rw [if_pos ⟨hdl, .inr ⟨hidx, hq, hd⟩⟩, if_neg hq]
    · obtain ⟨u, hrun, hu⟩ :=
        runAll_rxIdle_of_sync0 times (by rw [hcfg]; exact hl) ht (crcCoverage_of_idle hcrc hi hp) hp
      exact ⟨u, hrun, by rw [hu], by rw [hu]; exact hp, by rw [hu], by rw [hu]⟩
  · exact absurd hdl (Nat.not_le.2 hlt)

/-- Settles O36: each of the three answers of RX_IDLE, the timeout's by what it keeps. -/
theorem rxIdleCompletesAndKeepsTheRest : Obligations.RxIdleCompletesAndKeepsTheRest := by
  intro s hl
  obtain ⟨t, h⟩ := execRxIdle_completes hl
  refine ⟨t, h, ?_⟩
  obtain ⟨-, ⟨-, rfl⟩ | ⟨-, -, rfl⟩ | ⟨-, -, rfl⟩⟩ := execRxIdle_next h
  · simp [State.rxByte, State.txByte]
  · obtain ⟨hcfg, hrx, htx, -, hfid, hlid, hseq, hlen, hacc, -⟩ := timeoutFire_keeps { s with rxLast := sampleNow s }
    obtain ⟨hcmd, hnow, hbusy⟩ := timeoutFire_keeps_host_and_transmission { s with rxLast := sampleNow s }
    exact ⟨hcfg, fun k => congrArg (Memory.read .rx · k) hrx, fun k => congrArg (Memory.read .tx · k) htx, hfid, hlid,
      hlen, hseq, hacc, hcmd, hnow, hbusy⟩
  · simp [State.rxByte, State.txByte]

/-! ## RX_RELEASE (R200, R201) -/

/-- Settles O37: RX_RELEASE is the return to idle, under one check of the phase. -/
theorem rxReleaseReturnsToIdle : Obligations.RxReleaseReturnsToIdle := by
  refine ⟨by decide, fun s hl => ⟨fun hd => ?_, fun hd => ?_⟩⟩
  · exact (configured_legal hl _).trans (if_pos hd)
  · exact (configured_legal hl _).trans (if_neg hd)

/-- RX_BYTE and RX_IDLE are refused in `DONE`, and only RX_RELEASE among the others writes the phase (R201). -/
theorem exec_keeps_done {i : Instr} {s t : State} (hi : i ≠ .rxRelease) (hd : s.rxPhase = .done)
    (h : exec i s = .next t) : t.rxPhase = .done := by
  cases i with
  | crcInit => obtain ⟨-, rfl⟩ := execCrcInit_next h; exact hd
  | crcUpdate b => obtain ⟨-, rfl⟩ := execCrcUpdate_next h; exact hd
  | rxByte b =>
    obtain ⟨-, ⟨-, rfl⟩ | ⟨hne, -⟩ | ⟨hne, -⟩⟩ := execRxByte_next h
    · exact hd
    · exact absurd hd hne
    · exact absurd hd hne
  | rxIdle =>
    obtain ⟨-, ⟨-, rfl⟩ | ⟨hne, -⟩ | ⟨hne, -⟩⟩ := execRxIdle_next h
    · exact hd
    · exact absurd hd hne
    · exact absurd hd hne
  | rxRelease => exact absurd rfl hi
  | txSlotWrite k b => obtain ⟨-, ⟨-, rfl⟩ | ⟨-, -, -, rfl⟩⟩ := execTxSlotWrite_next h <;> exact hd
  | txSend n => obtain ⟨-, ⟨-, rfl⟩ | ⟨-, -, rfl⟩⟩ := execTxSend_next h <;> exact hd
  | txAccept => obtain ⟨-, ⟨-, rfl⟩ | ⟨-, -, rfl⟩⟩ := execTxAccept_next h <;> exact hd

/-- Settles O38: waiting and an illegal word keep the phase, and so does every command but RX_RELEASE. -/
theorem doneIsLeftOnlyByRelease : Obligations.DoneIsLeftOnlyByRelease := by
  intro s t h hd hleft
  obtain ⟨-, ⟨-, rfl⟩ | ⟨c, rest, hs, ⟨e, -, rfl⟩ | ⟨i, hi, hx⟩⟩⟩ := step_next h
  · exact absurd hd hleft
  · exact absurd hd hleft
  · by_cases hrel : i = .rxRelease
    · exact ⟨c, rest, hs, hrel ▸ hi⟩
    · exact absurd (exec_keeps_done (s := takeCommand c rest s) hrel hd hx) hleft

end Sys2Proof.Machine
end

section
/-!
PROOF. The obligations of spec/44_timeout_and_tick.md on the host procedure TICK (R205 to R212).
-/

namespace Sys2Proof.Machine

/-! ## The poll loop (R208, R212) -/

/-- Past a stored byte the deadline is armed, so an error keeps the loop going until the timeout. -/
theorem keepsPolling_of_error {s : State} (hs : Inv s) (hp : s.rxPhase = .error) : keepsPolling s = true := by
  simpa [keepsPolling, rxDone, deadlineArmed, hp] using hs.poll

/-- A byte polled in `ERROR` is absorbed. -/
theorem issue_rxByte_of_error {s : State} (b : Byte) (v : Nat) (hl : s.cfg.legal = true) (hs : Inv s)
    (hp : s.rxPhase = .error) :
    ∃ t : State, issue (.rxByte b) (some v) s = .next t ∧ t.cfg.legal = true ∧ Inv t ∧ t.rxPhase = .error
      ∧ t.errCount = s.errCount := by
  obtain ⟨t, h, ht, -⟩ := errorAbsorbsBytes (presentTime (some v) s) b hl hp
  exact ⟨t, h, by rw [ht]; exact hl, exec_keeps_inv (inv_presentTime hs (some v)) h, by rw [ht]; exact hp,
    exec_keeps_errCount (s := presentTime (some v) s) (by simp) h⟩

/-- Settles O56: each byte leaves a state like the one before it, so the loop is never left. -/
theorem noiseKeepsTheTickRunning : Obligations.NoiseKeepsTheTickRunning := by
  intro s bytes hl hs hp
  induction bytes generalizing s with
  | nil => exact ⟨s, by simp [pollLoop, keepsPolling_of_error hs hp], hp, rfl⟩
  | cons p bytes ih =>
    obtain ⟨u, hu, hlu, hsu, hpu, herr⟩ := issue_rxByte_of_error p.1 p.2 hl hs hp
    obtain ⟨t, hrun, hpt, herr'⟩ := ih u hlu hsu hpu
    refine ⟨t, ?_, hpt, herr'.trans herr⟩
    rw [List.map_cons, pollLoop, if_pos (keepsPolling_of_error hs hp)]
    dsimp only
    rw [hu, andThen_of_next, hrun]

/-- A completed frame ends the loop before the next poll (R209). -/
theorem pollLoop_of_done (polls : List Poll) {s : State} (hd : s.rxPhase = .done) :
    pollLoop polls s = .next (.exited s polls) := by
  have hstop : keepsPolling s = false := by simp [keepsPolling, rxDone, hd]
  cases polls <;> simp [pollLoop, hstop]

/-! ## The handler (R207, R210) -/

/-- Without a completed frame and an idle transmitter the handler is not called. -/
theorem deliver_waits (handler : Nat → List Byte → Reply) {s : State} (h : ¬(s.rxPhase = .done ∧ s.txRemaining = 0)) :
    deliver handler s = .next ⟨s, none⟩ :=
  if_neg (by simpa [rxDone, txBusy] using h)

/-- Settles O57: while TX is busy the frame waits in `DONE`, which also ends the poll loop at once. -/
theorem handlerWaitsForTheTransmitter : Obligations.HandlerWaitsForTheTransmitter := by
  intro handler answers polls s d hdrain
  constructor
  · intro hd hbusy
    rw [tick, hdrain, andThen_of_next, deliver_waits handler fun h => hbusy h.2, andThen_of_next,
      pollLoop_of_done polls hd, andThen_of_next]
  · intro r hr hcalled
    rw [tick, hdrain, andThen_of_next] at hr
    by_contra hwait
    rw [deliver_waits handler hwait, andThen_of_next] at hr
    obtain ⟨p, -, hr⟩ := andThen_next.1 hr
    cases hr
    exact hcalled rfl

end Sys2Proof.Machine
end

section
/-!
PROOF. The obligations of spec/60_exceptions.md: waiting for the host (R235), and the timeout as the only exit from
`ERROR` (R225).
-/

namespace Sys2Proof.Machine

/-- Settles O7: past the configuration check, a step with an empty stream is the wait. -/
theorem stepWaitsForTheHost : Obligations.StepWaitsForTheHost := by
  intro s hl hs
  simp only [step, nextCommand, configured_legal hl, hs]

/-! ## The exit from ERROR (R225) -/

/-- A received byte is absorbed in `ERROR`, RX_RELEASE is refused there, and of the others only RX_IDLE writes the
phase. -/
theorem exec_keeps_error {i : Instr} {s t : State} (hi : i ≠ .rxIdle) (hp : s.rxPhase = .error)
    (h : exec i s = .next t) : t.rxPhase = .error := by
  cases i with
  | crcInit => obtain ⟨-, rfl⟩ := execCrcInit_next h; exact hp
  | crcUpdate b => obtain ⟨-, rfl⟩ := execCrcUpdate_next h; exact hp
  | rxByte b =>
    obtain ⟨-, ⟨-, rfl⟩ | ⟨-, -, rfl⟩ | ⟨-, -, rfl⟩⟩ := execRxByte_next h
    · exact hp
    · exact enterError_rxPhase ..
    · rw [rxStep_of_error (s := takeByte b (loadDeadline s)) hp]
      exact hp
  | rxIdle => exact absurd rfl hi
  | rxRelease =>
    obtain ⟨-, ⟨hd, -⟩ | ⟨-, rfl⟩⟩ := execRxRelease_next h
    · simp [hp] at hd
    · exact hp
  | txSlotWrite k b => obtain ⟨-, ⟨-, rfl⟩ | ⟨-, -, -, rfl⟩⟩ := execTxSlotWrite_next h <;> exact hp
  | txSend n => obtain ⟨-, ⟨-, rfl⟩ | ⟨-, -, rfl⟩⟩ := execTxSend_next h <;> exact hp
  | txAccept => obtain ⟨-, ⟨-, rfl⟩ | ⟨-, -, rfl⟩⟩ := execTxAccept_next h <;> exact hp

/-- An RX_IDLE that leaves `ERROR` fired the timeout: spending the budget keeps the phase (R190, R192). -/
theorem execRxIdle_fired_of_leaves_error {s t : State} (h : execRxIdle s = .next t) (hp : s.rxPhase = .error)
    (hleft : t.rxPhase ≠ .error) :
    s.cfg.legal = true ∧ s.rxDeadline ≤ elapsedTicks s.cfg.tickBits s.rxLast (sampleNow s) := by
  obtain ⟨hl, ⟨-, rfl⟩ | ⟨-, hdl, -⟩ | ⟨-, -, rfl⟩⟩ := execRxIdle_next h
  · exact absurd hp hleft
  · exact ⟨hl, hdl⟩
  · exact absurd hp hleft

/-- Settles O39: waiting, an illegal word and every command but RX_IDLE keep `ERROR`, and the timeout resolves it as
O32 says. -/
theorem errorIsLeftOnlyByTimeout : Obligations.ErrorIsLeftOnlyByTimeout := by
  intro s t h hp hleft
  obtain ⟨-, ⟨-, rfl⟩ | ⟨c, rest, hs, ⟨e, -, rfl⟩ | ⟨i, hi, hx⟩⟩⟩ := step_next h
  · exact absurd hp hleft
  · exact absurd hp hleft
  · by_cases hidle : i = .rxIdle
    · subst hidle
      obtain ⟨hl, hdl⟩ := execRxIdle_fired_of_leaves_error hx hp hleft
      have hfires := timeoutResolvesAnError (takeCommand c rest s) hl (.inr hp) hdl
      obtain rfl := Host.Outcome.next.inj (hx.symm.trans hfires)
      refine ⟨c, rest, hs, hi, hdl, rfl, if_pos hp, ?_, ?_, rfl, rfl, rfl, rfl, rfl, rfl, rfl⟩
      · exact fun hen hfree => ⟨if_pos ⟨hen, hfree⟩, if_pos ⟨hen, hfree⟩, if_pos ⟨hen, hfree⟩⟩
      · exact fun harm => ⟨if_neg harm, if_neg harm, if_neg harm⟩
    · exact absurd (exec_keeps_error (s := takeCommand c rest s) hidle hp hx) hleft

end Sys2Proof.Machine
end

section
/-!
PROOF. Which configurations are legal (70_reset_and_hazards.md R250, R251).
-/

namespace Sys2Proof.Machine

/-- Settles O8: the checks of `legal_iff` with the two width checks put last, and the two refusals of an illegal
configuration. -/
theorem illegalConfigurationGetsNoBehaviour : Obligations.IllegalConfigurationGetsNoBehaviour := by
  refine ⟨fun c => ?_, fun s h => ⟨step_refused_of_illegal h, exec_refused_of_illegal h⟩⟩
  rw [legal_iff]
  constructor
  · rintro ⟨hrx, htx, htick, hpos, hmax, herr⟩
    exact ⟨hrx, htx, ⟨hpos, hmax⟩, htick, herr⟩
  · rintro ⟨hrx, htx, ⟨hpos, hmax⟩, htick, herr⟩
    exact ⟨hrx, htx, htick, hpos, hmax, herr⟩

end Sys2Proof.Machine
end
